-- ==== Sys2Proof/Word.lean ====
section
/-! DEFINITION. The bit widths of J1939C's ports (spec/10_state.md R13, R14): every quantity is unsigned (R6). -/

namespace Sys2Proof

/-- A one-bit port or flag; true is 1 and false is 0 (R6). -/
abbrev Bit := BitVec 1

/-- Half of the command byte (R40). -/
abbrev Nibble := BitVec 4

/-- An eight-bit port. -/
abbrev Byte := BitVec 8

/-- A 32-bit port (`RAW_W`, R5): every container is right-justified in it (R31). -/
abbrev Word := BitVec 32

end Sys2Proof
end

