-- ==== Sys2Proof/Syntax.lean ====
section
/-! DEFINITION. The commands of J1939C: one constructor per row of spec/opcode_table.json (spec/30_encoding.md R41, R42). -/

namespace Sys2Proof

/-- The nine signal widths W (R42, R70). No other width exists. -/
inductive Width where
  | w4 | w8 | w10 | w12 | w16 | w20 | w24 | w28 | w32
  deriving DecidableEq, Repr

/-- A command (R41). Operands are on the input ports, not in the command (R40). The nine operations that are
not signal operations keep the four bits `WSEL` of their byte, which they ignore (R40), so that no bit of an
encoding is dropped; a signal operation's `WSEL` is its width. -/
inductive Instr where
  | decStd (wsel : Nibble)
  | encStd (wsel : Nibble)
  | decExt (wsel : Nibble)
  | encExt (wsel : Nibble)
  | pgnBits (wsel : Nibble)
  | pgnDa (wsel : Nibble)
  | pgnGe (wsel : Nibble)
  | pgnMkdst (wsel : Nibble)
  | pgnMkbc (wsel : Nibble)
  | sigDec4 | sigDec8 | sigDec10 | sigDec12 | sigDec16 | sigDec20 | sigDec24 | sigDec28 | sigDec32
  | sigEnc4 | sigEnc8 | sigEnc10 | sigEnc12 | sigEnc16 | sigEnc20 | sigEnc24 | sigEnc28 | sigEnc32
  deriving DecidableEq, Repr

/-- A row of the opcode table: a byte `b` belongs to it when `b &&& mask = pat`. -/
structure OpRow where
  mnemonic : String
  pat : Byte
  mask : Byte
  deriving DecidableEq, Repr

end Sys2Proof
end

