-- ==== Sys2Proof/Decode.lean ====
section
/-! DEFINITION. The command byte (spec/30_encoding.md R40 to R42, R55): the decoder, total on every byte and
rejecting reserved codes by name, then the encoder, and the opcode table's rows. -/

namespace Sys2Proof

/-- Why a command byte has no command (R55). -/
inductive DecodeError where
  /-- `OP` is 0x0 or 0xC to 0xF. -/
  | reservedOp (op : Nibble)
  /-- `OP` is 0xA or 0xB and `WSEL` is 0x9 to 0xF. -/
  | reservedWsel (op wsel : Nibble)
  deriving DecidableEq, Repr

/-- `OP = cmd[7:4]` (R40). -/
def cmdOp (b : Byte) : Nibble := b.extractLsb 7 4

/-- `WSEL = cmd[3:0]` (R40). -/
def cmdWsel (b : Byte) : Nibble := b.extractLsb 3 0

/-- The width a `WSEL` selects (R42); 0x9 to 0xF are reserved. -/
def widthOfWsel (wsel : Nibble) : Option Width :=
  match wsel.toNat with
  | 0 => some .w4
  | 1 => some .w8
  | 2 => some .w10
  | 3 => some .w12
  | 4 => some .w16
  | 5 => some .w20
  | 6 => some .w24
  | 7 => some .w28
  | 8 => some .w32
  | _ => none

/-- The `WSEL` of a width (R42). -/
def wselOfWidth : Width → Nibble
  | .w4 => 0
  | .w8 => 1
  | .w10 => 2
  | .w12 => 3
  | .w16 => 4
  | .w20 => 5
  | .w24 => 6
  | .w28 => 7
  | .w32 => 8

/-- `SIG_DEC.W` (R41, R42). -/
def sigDecOf : Width → Instr
  | .w4 => .sigDec4
  | .w8 => .sigDec8
  | .w10 => .sigDec10
  | .w12 => .sigDec12
  | .w16 => .sigDec16
  | .w20 => .sigDec20
  | .w24 => .sigDec24
  | .w28 => .sigDec28
  | .w32 => .sigDec32

/-- `SIG_ENC.W` (R41, R42). -/
def sigEncOf : Width → Instr
  | .w4 => .sigEnc4
  | .w8 => .sigEnc8
  | .w10 => .sigEnc10
  | .w12 => .sigEnc12
  | .w16 => .sigEnc16
  | .w20 => .sigEnc20
  | .w24 => .sigEnc24
  | .w28 => .sigEnc28
  | .w32 => .sigEnc32

/-- A signal operation's byte: the command of its width, or the reserved `WSEL` by name. -/
def decodeSignal (b : Byte) (make : Width → Instr) : Except DecodeError Instr :=
  match widthOfWsel (cmdWsel b) with
  | some w => .ok (make w)
  | none => .error (.reservedWsel (cmdOp b) (cmdWsel b))

/-- The command a byte selects (R41, R42, R55). -/
def decode (b : Byte) : Except DecodeError Instr :=
  match (cmdOp b).toNat with
  | 0x1 => .ok (.decStd (cmdWsel b))
  | 0x2 => .ok (.encStd (cmdWsel b))
  | 0x3 => .ok (.decExt (cmdWsel b))
  | 0x4 => .ok (.encExt (cmdWsel b))
  | 0x5 => .ok (.pgnBits (cmdWsel b))
  | 0x6 => .ok (.pgnDa (cmdWsel b))
  | 0x7 => .ok (.pgnGe (cmdWsel b))
  | 0x8 => .ok (.pgnMkdst (cmdWsel b))
  | 0x9 => .ok (.pgnMkbc (cmdWsel b))
  | 0xA => decodeSignal b sigDecOf
  | 0xB => decodeSignal b sigEncOf
  | _ => .error (.reservedOp (cmdOp b))

/-- The host's view of the decoder: the command is one byte long (R40), numbered from its least significant bit. -/
def decodeTableWord (nbits w : Nat) : Option Instr :=
  match decode (BitVec.ofNat 8 (w % 2 ^ nbits)) with
  | .ok i => some i
  | .error _ => none

/-- The `OP` of a command (R41). -/
def opOf : Instr → Nibble
  | .decStd _ => 0x1
  | .encStd _ => 0x2
  | .decExt _ => 0x3
  | .encExt _ => 0x4
  | .pgnBits _ => 0x5
  | .pgnDa _ => 0x6
  | .pgnGe _ => 0x7
  | .pgnMkdst _ => 0x8
  | .pgnMkbc _ => 0x9
  | .sigDec4 | .sigDec8 | .sigDec10 | .sigDec12 | .sigDec16 | .sigDec20 | .sigDec24 | .sigDec28 | .sigDec32 => 0xA
  | .sigEnc4 | .sigEnc8 | .sigEnc10 | .sigEnc12 | .sigEnc16 | .sigEnc20 | .sigEnc24 | .sigEnc28 | .sigEnc32 => 0xB

/-- The `WSEL` of a command (R40, R42). -/
def wselOf : Instr → Nibble
  | .decStd x | .encStd x | .decExt x | .encExt x => x
  | .pgnBits x | .pgnDa x | .pgnGe x | .pgnMkdst x | .pgnMkbc x => x
  | .sigDec4 | .sigEnc4 => 0x0
  | .sigDec8 | .sigEnc8 => 0x1
  | .sigDec10 | .sigEnc10 => 0x2
  | .sigDec12 | .sigEnc12 => 0x3
  | .sigDec16 | .sigEnc16 => 0x4
  | .sigDec20 | .sigEnc20 => 0x5
  | .sigDec24 | .sigEnc24 => 0x6
  | .sigDec28 | .sigEnc28 => 0x7
  | .sigDec32 | .sigEnc32 => 0x8

/-- The command byte of a command (R40): `OP` in the high nibble, `WSEL` in the low one. -/
def encode (i : Instr) : Byte := opOf i ++ wselOf i

/-- The row of spec/opcode_table.json a command stands for. -/
def rowOf : Instr → OpRow
  | .decStd _ => ⟨"DEC_STD", 0x10, 0xF0⟩
  | .encStd _ => ⟨"ENC_STD", 0x20, 0xF0⟩
  | .decExt _ => ⟨"DEC_EXT", 0x30, 0xF0⟩
  | .encExt _ => ⟨"ENC_EXT", 0x40, 0xF0⟩
  | .pgnBits _ => ⟨"PGN_BITS", 0x50, 0xF0⟩
  | .pgnDa _ => ⟨"PGN_DA", 0x60, 0xF0⟩
  | .pgnGe _ => ⟨"PGN_GE", 0x70, 0xF0⟩
  | .pgnMkdst _ => ⟨"PGN_MKDST", 0x80, 0xF0⟩
  | .pgnMkbc _ => ⟨"PGN_MKBC", 0x90, 0xF0⟩
  | .sigDec4 => ⟨"SIG_DEC.4", 0xA0, 0xFF⟩
  | .sigDec8 => ⟨"SIG_DEC.8", 0xA1, 0xFF⟩
  | .sigDec10 => ⟨"SIG_DEC.10", 0xA2, 0xFF⟩
  | .sigDec12 => ⟨"SIG_DEC.12", 0xA3, 0xFF⟩
  | .sigDec16 => ⟨"SIG_DEC.16", 0xA4, 0xFF⟩
  | .sigDec20 => ⟨"SIG_DEC.20", 0xA5, 0xFF⟩
  | .sigDec24 => ⟨"SIG_DEC.24", 0xA6, 0xFF⟩
  | .sigDec28 => ⟨"SIG_DEC.28", 0xA7, 0xFF⟩
  | .sigDec32 => ⟨"SIG_DEC.32", 0xA8, 0xFF⟩
  | .sigEnc4 => ⟨"SIG_ENC.4", 0xB0, 0xFF⟩
  | .sigEnc8 => ⟨"SIG_ENC.8", 0xB1, 0xFF⟩
  | .sigEnc10 => ⟨"SIG_ENC.10", 0xB2, 0xFF⟩
  | .sigEnc12 => ⟨"SIG_ENC.12", 0xB3, 0xFF⟩
  | .sigEnc16 => ⟨"SIG_ENC.16", 0xB4, 0xFF⟩
  | .sigEnc20 => ⟨"SIG_ENC.20", 0xB5, 0xFF⟩
  | .sigEnc24 => ⟨"SIG_ENC.24", 0xB6, 0xFF⟩
  | .sigEnc28 => ⟨"SIG_ENC.28", 0xB7, 0xFF⟩
  | .sigEnc32 => ⟨"SIG_ENC.32", 0xB8, 0xFF⟩

/-- A byte lies in a row of the opcode table. -/
def rowMatches (r : OpRow) (b : Byte) : Bool := decide (b &&& r.mask = r.pat)

/-- The source's name for the operation (R58); it gives the destination constructor none. -/
def sourceName : Instr → Option String
  | .decStd _ => some "decode_standard"
  | .encStd _ => some "encode_standard"
  | .decExt _ => some "decode_extended"
  | .encExt _ => some "encode_extended"
  | .pgnBits _ => some "to_bits"
  | .pgnDa _ => some "destination_address"
  | .pgnGe _ => some "broadcast_group_extension"
  | .pgnMkdst _ => none
  | .pgnMkbc _ => some "new_broadcast"
  | .sigDec4 | .sigDec8 | .sigDec10 | .sigDec12 | .sigDec16 | .sigDec20 | .sigDec24 | .sigDec28 | .sigDec32 =>
    some "decode_signal"
  | .sigEnc4 | .sigEnc8 | .sigEnc10 | .sigEnc12 | .sigEnc16 | .sigEnc20 | .sigEnc24 | .sigEnc28 | .sigEnc32 =>
    some "encode_signal"

end Sys2Proof
end

