-- ==== Sys2Proof/Config.lean ====
section
/-! DEFINITION. What is fixed when a block is built (spec/00_scope.md R5, spec/40_signal.md R71, R75): the class
boundaries and the sentinel constants of the signal classifier. The default both take is in Machine/Tables.lean. The
block draws no free value (R8: 'no step draws a free value'), so nothing here is without a body. -/

namespace Sys2Proof

/-- The cut points `SIGTAB(W) = (v_hi, i_hi, r_hi, e_hi)` of one width (R71): the highest raw value of Value,
Indicator, Reserved and Error; NotAvailable is the rest. -/
structure SigCuts where
  vHi : Nat
  iHi : Nat
  rHi : Nat
  eHi : Nat
  deriving DecidableEq, Repr

/-- The four classes without a payload (R21, R43). -/
inductive Sentinel where
  | indicator | reserved | error | notAvailable
  deriving DecidableEq, Repr

/-- The five classes of a signal (R21, R43). -/
inductive SigClass where
  | value
  | sentinel (c : Sentinel)
  deriving DecidableEq, Repr

/-- The configuration of a block, fixed for a run (R24). -/
structure Config where
  /-- `SIGTAB` (R71). -/
  sigtab : Width → SigCuts
  /-- `SIGCANON` (R75): the raw value a sentinel class encodes to. -/
  sigcanon : Width → Sentinel → Word

end Sys2Proof
end

