-- ==== Sys2Proof/Machine/State.lean ====
section
/-! DEFINITION. The state of J1939C (spec/10_state.md) and the data its ports carry: FAULT and FCAUSE are the whole
architectural state (R10); the ports, the response and the host's events stand beside them because a step of the
host's interface takes and gives a state alone (log entries 2, 4, 5). -/

namespace Sys2Proof.Machine

open Sys2Proof

/-- The operand ports (R13). The command port `cmd` is in `Request`. -/
structure InPorts where
  /-- `i_raw`: a raw wire value, right-justified. -/
  raw : Word
  /-- `i_prio`: a priority to encode; wider than three bits so that an illegal one can be presented. -/
  prio : Byte
  /-- `i_sa`: a source address. -/
  sa : Byte
  /-- `i_pf`: a PGN format byte. -/
  pf : Byte
  /-- `i_ps`: a PGN specific byte. -/
  ps : Byte
  /-- `i_dp`: a PGN data page flag. -/
  dp : Bit
  /-- `i_edp`: a PGN extended data page flag. -/
  edp : Bit
  /-- `i_class`: a signal class code. -/
  cls : BitVec 3
  /-- `i_val`: the payload of a Value, right-justified. -/
  val : Word
  deriving DecidableEq, Repr

/-- The data output ports (R14). -/
structure OutPorts where
  /-- `o_raw`: an encoded wire value, right-justified. -/
  raw : Word
  /-- `o_prio`: a decoded priority. -/
  prio : BitVec 3
  /-- `o_sa`: a decoded source address. -/
  sa : Byte
  /-- `o_pf`: a PGN format byte. -/
  pf : Byte
  /-- `o_ps`: a PGN specific byte. -/
  ps : Byte
  /-- `o_dp`: a PGN data page flag. -/
  dp : Bit
  /-- `o_edp`: a PGN extended data page flag. -/
  edp : Bit
  /-- `o_tag`: the PGN variant (R46). -/
  tag : Bit
  /-- `o_some`: 1 is Some (R102, R103). -/
  some : Bit
  /-- `o_byte`: the byte inside Some. -/
  byte : Byte
  /-- `o_class`: a decoded signal class code (R43). -/
  cls : BitVec 3
  /-- `o_val`: the payload of a decoded Value. -/
  val : Word
  deriving DecidableEq, Repr

/-- What the host presents with one request (R172): the command byte and the operand ports. -/
structure Request where
  cmd : Byte
  ports : InPorts
  deriving DecidableEq, Repr

/-- The statuses (R44). -/
inductive Status where
  | ok | rangeError | contractViolation | illegalCmd | faulted
  deriving DecidableEq, Repr

/-- The causes of a ContractViolation (R45, R141). -/
inductive Cause where
  | priority | valueRange
  deriving DecidableEq, Repr

/-- What an operation's own rule ends in (R7, R146 item 3), and the reserved class code of `SIG_ENC.W` (R146 item 2). -/
inductive Result where
  /-- `o_status <- OK` with the data ports as the rule drives them. -/
  | ok (out : OutPorts)
  /-- `raise RangeError`. -/
  | rangeError
  /-- `raise ContractViolation(c)`. -/
  | contractViolation (c : Cause)
  /-- `raise IllegalCmd`. -/
  | illegalCmd
  deriving DecidableEq, Repr

/-- The response to one command (R14, R172). -/
structure Response where
  status : Status
  out : OutPorts
  deriving DecidableEq, Repr

/-- What the host and the surroundings do to the block between two steps. -/
inductive HostEvent where
  /-- A request is accepted and answered (R172, R175). -/
  | request (r : Request)
  /-- Reset between two commands (R170). -/
  | reset
  /-- A request is accepted and reset comes before its response (R176). -/
  | requestThenReset (r : Request)
  /-- Power-up (R171, U9): the latch holds any value, here whatever the event carries. -/
  | powerUp (fault : Bit) (fcause : BitVec 2)
  /-- The host moves a port while `req_valid` is 1 and the request is not yet accepted (R174 item 2, U6). -/
  | unstableRequest
  deriving DecidableEq, Repr

/-- The reasons the machine stops with a fault: none. A ContractViolation is a next state with the latch set (R147), and
the faulted state still answers every command (R144; spec/93_implementation_defined.md: 'No entry has treatment
`stuck`'). No one raises a fault, so a model that has none is neither safe nor unsafe in this point. -/
inductive Fault where
  deriving DecidableEq, Repr

/-- The reasons the model gives a step no meaning. -/
inductive Refusal where
  /-- `exec`, for a command that has no meaning yet: none is left. Safe: the run stops where the block goes on. -/
  | notModelled (mnemonic : String)
  /-- `step`, for a request while no reset has been applied since power-up: 'no rule of this spec applies' (R171),
  treatment `refuse` (U9). Safe: the run stops. -/
  | commandBeforeReset
  /-- `step`, for a request whose ports move before it is accepted: 'makes the request undefined' (R174), treatment
  `refuse` (U6). Safe: the run stops. -/
  | unstableRequest
  deriving DecidableEq, Repr

/-- The machine. -/
structure State where
  /-- `FAULT` (R11). -/
  fault : Bit
  /-- `FCAUSE` (R12). -/
  fcause : BitVec 2
  /-- The operand ports as the last accepted request left them (R13). No later command reads them. -/
  inPorts : InPorts
  /-- The response of the last step, if it gave one (R172): `rsp_valid` is `rsp.isSome`. -/
  rsp : Option Response
  /-- MODEL'S OWN: what the host and the surroundings do next, first event first. -/
  host : List HostEvent
  /-- MODEL'S OWN: reset has been applied since power-up (R171). -/
  resetDone : Bool
  deriving DecidableEq, Repr

/-- The block right after reset (R23): `FAULT` and `FCAUSE` are 0, no response is given. The operand ports at 0 and
the empty list of events are DESIGN CHOICES (log entries 3, 4). -/
def State.reset : State where
  fault := 0#1
  fcause := 0#2
  inPorts := ⟨0, 0, 0, 0, 0, 0, 0, 0, 0⟩
  rsp := none
  host := []
  resetDone := true

end Sys2Proof.Machine
end

