-- ==== Sys2Proof/Machine/Flags.lean ====
section
/-! DEFINITION. The code tables (spec/30_encoding.md R43 to R46) and the one-bit results: the routing predicate
and the PGN tag (spec/41_pgn.md R101). The block has no condition flags (R17). -/

namespace Sys2Proof.Machine

open Sys2Proof

/-- Status codes on `o_status` (R44). -/
def statusCode : Status → BitVec 3
  | .ok => 0
  | .rangeError => 1
  | .contractViolation => 2
  | .illegalCmd => 3
  | .faulted => 4

/-- Cause codes in `FCAUSE` (R45); 0 is `NONE` and 3 is never written. -/
def causeCode : Cause → BitVec 2
  | .priority => 1
  | .valueRange => 2

/-- Class codes on `o_class` (R43). -/
def classCode : SigClass → BitVec 3
  | .value => 0
  | .sentinel .indicator => 1
  | .sentinel .reserved => 2
  | .sentinel .error => 3
  | .sentinel .notAvailable => 4

/-- The class a code on `i_class` stands for (R43); 5, 6 and 7 are reserved (R55). -/
def classOfCode (c : BitVec 3) : Option SigClass :=
  match c.toNat with
  | 0 => some .value
  | 1 => some (.sentinel .indicator)
  | 2 => some (.sentinel .reserved)
  | 3 => some (.sentinel .error)
  | 4 => some (.sentinel .notAvailable)
  | _ => none

/-- The routing predicate `bc(pf) = (pf >= 240)` (R101), unsigned. -/
def isBroadcast (pf : Byte) : Bool := decide (240 ≤ pf.toNat)

/-- The PGN variant tag (R46, R101): 1 is Broadcast, 0 Destination. -/
def pgnTag (pf : Byte) : Bit := if isBroadcast pf then 1 else 0

end Sys2Proof.Machine
end

