-- ==== Sys2Proof/Machine/Operands.lean ====
section
/-! DEFINITION. The bitfield unpacker and packer (spec/30_encoding.md R53, R54), the layouts they serve (R48, R49,
R50), the defaults of the output ports (spec/10_state.md R14) and the views of the output ports (R14, R15). -/

namespace Sys2Proof.Machine

open Sys2Proof

/-- `unpack(v, hi, lo) = v[hi:lo]` (R53). -/
def unpack (v : Word) (hi lo : Nat) : BitVec (hi - lo + 1) := v.extractLsb hi lo

/-- `pack(f1 @ p1, ..., fn @ pn)` (R54): the OR of the fields, each shifted to its position. -/
def pack : List (Word × Nat) → Word
  | [] => 0
  | (f, p) :: rest => (f <<< p) ||| pack rest

/-- A field as a 32-bit value, high bits zero (`zext`, R7). -/
def zext {n : Nat} (f : BitVec n) : Word := f.setWidth 32

/-- The standard identifier: `priority<<8 | source_address` (R48). -/
def packStd (prio sa : Byte) : Word := pack [(zext prio, 8), (zext sa, 0)]

/-- The extended identifier (R49). -/
def packExt (prio : Byte) (edp dp : Bit) (pf ps sa : Byte) : Word :=
  pack [(zext prio, 26), (zext edp, 25), (zext dp, 24), (zext pf, 16), (zext ps, 8), (zext sa, 0)]

/-- The PGN number: `extended_data_page<<17 | data_page<<16 | format<<8 | specific` (R50). -/
def packPgn (edp dp : Bit) (pf ps : Byte) : Word :=
  pack [(zext edp, 17), (zext dp, 16), (zext pf, 8), (zext ps, 0)]

/-- The defaults of the data output ports (R14): 0, and NotAvailable on `o_class`. -/
def outDefault : OutPorts where
  raw := 0
  prio := 0
  sa := 0
  pf := 0
  ps := 0
  dp := 0
  edp := 0
  tag := 0
  some := 0
  byte := 0
  cls := 4
  val := 0

/-- `o_fault` (R15). -/
def oFault (s : State) : Bit := s.fault

/-- `o_fcause` (R15). -/
def oFcause (s : State) : BitVec 2 := s.fcause

/-- `rsp_valid` (R172): the step gave a response. -/
def rspValid (s : State) : Bool := s.rsp.isSome

/-- `o_status` in a response (R14); outside a response it carries no defined value (R172). -/
def oStatus (s : State) : Option (BitVec 3) := s.rsp.map fun r => statusCode r.status

end Sys2Proof.Machine
end

