-- ==== Sys2Proof/Machine/Ops.lean ====
section
/-! DEFINITION. The shared operations of a step: answering (spec/60_exceptions.md R140, R142 to R144), entering the
faulted state (R147), reset, which is the only way back (R148; spec/70_reset_and_hazards.md R170, R176), completing
a command in the order of checks of R146, and what the host's events do. -/

namespace Sys2Proof.Machine

open Sys2Proof

/-- Drive a response (R14). The latch keeps its value. -/
def respond (st : Status) (out : OutPorts) (s : State) : State :=
  { s with rsp := some ⟨st, out⟩ }

/-- ContractViolation entry (R147): status and default data, `FAULT <- 1`, `FCAUSE <- c`, and nothing else. -/
def raiseViolation (c : Cause) (s : State) : State :=
  respond .contractViolation outDefault { s with fault := 1#1, fcause := causeCode c }

/-- Reset (R170): the latch is cleared, a request in flight is dropped without a response (R176). -/
def applyReset (s : State) : State :=
  { s with fault := 0#1, fcause := 0#2, rsp := none, resetDone := true }

/-- Power-up (R171, U9): the latch holds any value and reset has still to be applied. DESIGN CHOICE: no response stands,
so `rsp_valid` is 0, where U9 gives no output a value (log entry 15). -/
def powerUp (f : Bit) (c : BitVec 2) (s : State) : State :=
  { s with fault := f, fcause := c, rsp := none, resetDone := false }

/-- No request: no response is given and nothing changes (R172, R177). DESIGN CHOICE before the first reset, where U9
gives the outputs and the latch no value: `rsp_valid` is 0 (log entry 15), and `FAULT` and `FCAUSE` stay at what power-up
left in them (log entry 16). -/
def idle (s : State) : State := { s with rsp := none }

/-- Complete a command whose reserved codes and operand check end in `r` (R146): `FAULT` is looked at first (R144). -/
def complete (r : Result) (s : State) : State :=
  if s.fault = 1#1 then respond .faulted outDefault s
  else
    match r with
    | .ok out => respond .ok out s
    | .rangeError => respond .rangeError outDefault s
    | .contractViolation c => raiseViolation c s
    | .illegalCmd => respond .illegalCmd outDefault s

/-- The block samples the operand ports when it accepts the request (R13, R172). -/
def samplePorts (p : InPorts) (s : State) : State := { s with inPorts := p }

/-- The events after the first. -/
def takeEvent (rest : List HostEvent) (s : State) : State := { s with host := rest }

/-- A request whose command byte is reserved (R55, R143): `ILLEGAL_CMD`, unless the block is faulted (R144). -/
def reservedCommand (s : State) : State := complete .illegalCmd s

/-- The host presents a command byte next, on operand ports as they stand, after the reset R171 asks for. -/
def presentCommand (b : Byte) (s : State) : State :=
  { s with host := .request ⟨b, s.inPorts⟩ :: s.host, resetDone := true }

end Sys2Proof.Machine
end

