-- ==== Sys2Proof/Machine/Identifier.lean ====
section
/-! DEFINITION. The CAN-ID parser: DEC_STD, ENC_STD, DEC_EXT, ENC_EXT (spec/42_identifier.md R120 to R123, R126). -/

namespace Sys2Proof.Machine

open Sys2Proof

/-- `DEC_STD` (R120): the priority is everything above the source address, over all 32 bits (R126). -/
def decStd (p : InPorts) : Result :=
  if (p.raw >>> 8).toNat ≥ 8 then .contractViolation .priority
  else .ok { outDefault with prio := unpack p.raw 10 8, sa := unpack p.raw 7 0 }

/-- `ENC_STD` (R121). -/
def encStd (p : InPorts) : Result :=
  if p.prio.toNat ≥ 8 then .contractViolation .priority
  else .ok { outDefault with raw := packStd p.prio p.sa }

/-- `DEC_EXT` (R122), with the PGN's tag (R20, R101). -/
def decExt (p : InPorts) : Result :=
  if (p.raw >>> 26).toNat ≥ 8 then .contractViolation .priority
  else .ok
    { outDefault with
      prio := unpack p.raw 28 26
      edp := unpack p.raw 25 25
      dp := unpack p.raw 24 24
      pf := unpack p.raw 23 16
      ps := unpack p.raw 15 8
      sa := unpack p.raw 7 0
      tag := pgnTag (unpack p.raw 23 16) }

/-- `ENC_EXT` (R123). -/
def encExt (p : InPorts) : Result :=
  if p.prio.toNat ≥ 8 then .contractViolation .priority
  else .ok { outDefault with raw := packExt p.prio p.edp p.dp p.pf p.ps p.sa }

/-- DEC_STD. -/
def execDecStd (s : State) : Host.Outcome State Fault Refusal := .next (complete (decStd s.inPorts) s)

/-- ENC_STD. -/
def execEncStd (s : State) : Host.Outcome State Fault Refusal := .next (complete (encStd s.inPorts) s)

/-- DEC_EXT. -/
def execDecExt (s : State) : Host.Outcome State Fault Refusal := .next (complete (decExt s.inPorts) s)

/-- ENC_EXT. -/
def execEncExt (s : State) : Host.Outcome State Fault Refusal := .next (complete (encExt s.inPorts) s)

end Sys2Proof.Machine
end

