-- ==== Sys2Proof/Machine/Pgn.lean ====
section
/-! DEFINITION. The PGN format router: PGN_BITS, PGN_DA, PGN_GE, PGN_MKDST, PGN_MKBC (spec/41_pgn.md R101 to R107). -/

namespace Sys2Proof.Machine

open Sys2Proof

/-- `Some(b)` when `present`, else `None`, whose byte is 0 (R102, R103, D24). -/
def driveOption (present : Bool) (b : Byte) : OutPorts :=
  if present then { outDefault with some := 1, byte := b } else { outDefault with some := 0, byte := 0 }

/-- The four PGN fields echoed with a tag (R106, R107). -/
def drivePgn (p : InPorts) (tag : Bit) : OutPorts :=
  { outDefault with edp := p.edp, dp := p.dp, pf := p.pf, ps := p.ps, tag := tag }

/-- `PGN_BITS` (R105): `to_bits()`, the same for both variants. -/
def pgnBits (p : InPorts) : Result := .ok { outDefault with raw := packPgn p.edp p.dp p.pf p.ps }

/-- `PGN_DA` (R102): `destination_address()`. -/
def pgnDa (p : InPorts) : Result := .ok (driveOption (!isBroadcast p.pf) p.ps)

/-- `PGN_GE` (R103): `broadcast_group_extension()`. -/
def pgnGe (p : InPorts) : Result := .ok (driveOption (isBroadcast p.pf) p.ps)

/-- `PGN_MKDST` (R106): the tag is 0, Destination. -/
def pgnMkdst (p : InPorts) : Result :=
  if isBroadcast p.pf then .rangeError else .ok (drivePgn p 0)

/-- `PGN_MKBC` (R107): the tag is 1, Broadcast (C7). -/
def pgnMkbc (p : InPorts) : Result :=
  if isBroadcast p.pf then .ok (drivePgn p 1) else .rangeError

/-- PGN_BITS. -/
def execPgnBits (s : State) : Host.Outcome State Fault Refusal := .next (complete (pgnBits s.inPorts) s)

/-- PGN_DA. -/
def execPgnDa (s : State) : Host.Outcome State Fault Refusal := .next (complete (pgnDa s.inPorts) s)

/-- PGN_GE. -/
def execPgnGe (s : State) : Host.Outcome State Fault Refusal := .next (complete (pgnGe s.inPorts) s)

/-- PGN_MKDST. -/
def execPgnMkdst (s : State) : Host.Outcome State Fault Refusal := .next (complete (pgnMkdst s.inPorts) s)

/-- PGN_MKBC. -/
def execPgnMkbc (s : State) : Host.Outcome State Fault Refusal := .next (complete (pgnMkbc s.inPorts) s)

end Sys2Proof.Machine
end

