-- ==== Sys2Proof/Machine/Tables.lean ====
section
/-! DEFINITION. The widths, the default class table and the default sentinel constants of the signal classifier
(spec/40_signal.md R70, R71, R72, R75), as the spec writes them out. -/

namespace Sys2Proof.Machine

open Sys2Proof

/-- Every width, in the order of R42. -/
def allWidths : List Width := [.w4, .w8, .w10, .w12, .w16, .w20, .w24, .w28, .w32]

/-- Every sentinel class, in the order of R43. -/
def allSentinels : List Sentinel := [.indicator, .reserved, .error, .notAvailable]

/-- W in bits (R42). -/
def widthBits : Width → Nat
  | .w4 => 4
  | .w8 => 8
  | .w10 => 10
  | .w12 => 12
  | .w16 => 16
  | .w20 => 20
  | .w24 => 24
  | .w28 => 28
  | .w32 => 32

/-- `C(W)`, the container the source carries a W-bit signal in (R31, R70). -/
def containerBits (w : Width) : Nat :=
  if widthBits w ≤ 8 then 8 else if widthBits w ≤ 16 then 16 else 32

/-- `MAX(W) = 2^W - 1` (R6, R42). -/
def maxOf (w : Width) : Nat := 2 ^ widthBits w - 1

/-- The default `SIGTAB`, R71's table of cut points in decimal. DESIGN CHOICE of the spec for W of 12 and more
(D19, log entry 6); the rows 4, 8 and 10 are the source's. -/
def defaultCuts : Width → SigCuts
  | .w4 => ⟨10, 11, 13, 14⟩
  | .w8 => ⟨250, 251, 253, 254⟩
  | .w10 => ⟨1018, 1019, 1021, 1022⟩
  | .w12 => ⟨4015, 4031, 4063, 4079⟩
  | .w16 => ⟨64255, 64511, 65023, 65279⟩
  | .w20 => ⟨1028095, 1032191, 1040383, 1044479⟩
  | .w24 => ⟨16449535, 16515071, 16646143, 16711679⟩
  | .w28 => ⟨263192575, 264241151, 266338303, 267386879⟩
  | .w32 => ⟨4211081215, 4227858431, 4261412863, 4278190079⟩

/-- The default `SIGCANON`, R75's table. DESIGN CHOICE of the spec where a class has several raw values
(D20, log entry 6). -/
def defaultCanon : Width → Sentinel → Word
  | .w4, .indicator => 0xB#32
  | .w4, .reserved => 0xD#32
  | .w4, .error => 0xE#32
  | .w4, .notAvailable => 0xF#32
  | .w8, .indicator => 0xFB#32
  | .w8, .reserved => 0xFD#32
  | .w8, .error => 0xFE#32
  | .w8, .notAvailable => 0xFF#32
  | .w10, .indicator => 0x3FB#32
  | .w10, .reserved => 0x3FD#32
  | .w10, .error => 0x3FE#32
  | .w10, .notAvailable => 0x3FF#32
  | .w12, .indicator => 0xFBF#32
  | .w12, .reserved => 0xFDF#32
  | .w12, .error => 0xFEF#32
  | .w12, .notAvailable => 0xFFF#32
  | .w16, .indicator => 0xFBFF#32
  | .w16, .reserved => 0xFDFF#32
  | .w16, .error => 0xFEFF#32
  | .w16, .notAvailable => 0xFFFF#32
  | .w20, .indicator => 0xFBFFF#32
  | .w20, .reserved => 0xFDFFF#32
  | .w20, .error => 0xFEFFF#32
  | .w20, .notAvailable => 0xFFFFF#32
  | .w24, .indicator => 0xFBFFFF#32
  | .w24, .reserved => 0xFDFFFF#32
  | .w24, .error => 0xFEFFFF#32
  | .w24, .notAvailable => 0xFFFFFF#32
  | .w28, .indicator => 0xFBFFFFF#32
  | .w28, .reserved => 0xFDFFFFF#32
  | .w28, .error => 0xFEFFFFF#32
  | .w28, .notAvailable => 0xFFFFFFF#32
  | .w32, .indicator => 0xFBFFFFFF#32
  | .w32, .reserved => 0xFDFFFFFF#32
  | .w32, .error => 0xFEFFFFFF#32
  | .w32, .notAvailable => 0xFFFFFFFF#32

/-- The configuration this block is built with: the spec's default (R5, log entry 6). -/
def chip : Config where
  sigtab := defaultCuts
  sigcanon := defaultCanon

/-- `class_of(W, r)` for the cut points of W (R72): compared in ascending order. -/
def classOf (cuts : SigCuts) (r : Nat) : SigClass :=
  if r ≤ cuts.vHi then .value
  else if r ≤ cuts.iHi then .sentinel .indicator
  else if r ≤ cuts.rHi then .sentinel .reserved
  else if r ≤ cuts.eHi then .sentinel .error
  else .sentinel .notAvailable

end Sys2Proof.Machine
end

