-- ==== Sys2Proof/Machine/Signal.lean ====
section
/-! DEFINITION. The signal classifier: SIG_DEC.W and SIG_ENC.W in nine widths (spec/40_signal.md R73, R74, R76, R77). -/

namespace Sys2Proof.Machine

open Sys2Proof

/-- `SIG_DEC.W` (R73): the range check (R74), then the class (R72); a sentinel has no payload. -/
def sigDec (cfg : Config) (w : Width) (p : InPorts) : Result :=
  if p.raw.toNat > maxOf w then .rangeError
  else
    .ok
      { outDefault with
        cls := classCode (classOf (cfg.sigtab w) p.raw.toNat)
        val := if classOf (cfg.sigtab w) p.raw.toNat = .value then p.raw else 0 }

/-- `SIG_ENC.W` (R76): a reserved class code is an illegal command (R55), a Value above `v_hi` a ContractViolation
(R77), and a sentinel encodes to its constant (R75) whatever `i_val` holds. -/
def sigEnc (cfg : Config) (w : Width) (p : InPorts) : Result :=
  match classOfCode p.cls with
  | none => .illegalCmd
  | some .value =>
    if p.val.toNat > (cfg.sigtab w).vHi then .contractViolation .valueRange
    else .ok { outDefault with raw := p.val }
  | some (.sentinel c) => .ok { outDefault with raw := cfg.sigcanon w c }

/-- SIG_DEC.4. -/
def execSigDec4 (s : State) : Host.Outcome State Fault Refusal := .next (complete (sigDec chip .w4 s.inPorts) s)

/-- SIG_DEC.8. -/
def execSigDec8 (s : State) : Host.Outcome State Fault Refusal := .next (complete (sigDec chip .w8 s.inPorts) s)

/-- SIG_DEC.10. -/
def execSigDec10 (s : State) : Host.Outcome State Fault Refusal := .next (complete (sigDec chip .w10 s.inPorts) s)

/-- SIG_DEC.12. -/
def execSigDec12 (s : State) : Host.Outcome State Fault Refusal := .next (complete (sigDec chip .w12 s.inPorts) s)

/-- SIG_DEC.16. -/
def execSigDec16 (s : State) : Host.Outcome State Fault Refusal := .next (complete (sigDec chip .w16 s.inPorts) s)

/-- SIG_DEC.20. -/
def execSigDec20 (s : State) : Host.Outcome State Fault Refusal := .next (complete (sigDec chip .w20 s.inPorts) s)

/-- SIG_DEC.24. -/
def execSigDec24 (s : State) : Host.Outcome State Fault Refusal := .next (complete (sigDec chip .w24 s.inPorts) s)

/-- SIG_DEC.28. -/
def execSigDec28 (s : State) : Host.Outcome State Fault Refusal := .next (complete (sigDec chip .w28 s.inPorts) s)

/-- SIG_DEC.32. -/
def execSigDec32 (s : State) : Host.Outcome State Fault Refusal := .next (complete (sigDec chip .w32 s.inPorts) s)

/-- SIG_ENC.4. -/
def execSigEnc4 (s : State) : Host.Outcome State Fault Refusal := .next (complete (sigEnc chip .w4 s.inPorts) s)

/-- SIG_ENC.8. -/
def execSigEnc8 (s : State) : Host.Outcome State Fault Refusal := .next (complete (sigEnc chip .w8 s.inPorts) s)

/-- SIG_ENC.10. -/
def execSigEnc10 (s : State) : Host.Outcome State Fault Refusal := .next (complete (sigEnc chip .w10 s.inPorts) s)

/-- SIG_ENC.12. -/
def execSigEnc12 (s : State) : Host.Outcome State Fault Refusal := .next (complete (sigEnc chip .w12 s.inPorts) s)

/-- SIG_ENC.16. -/
def execSigEnc16 (s : State) : Host.Outcome State Fault Refusal := .next (complete (sigEnc chip .w16 s.inPorts) s)

/-- SIG_ENC.20. -/
def execSigEnc20 (s : State) : Host.Outcome State Fault Refusal := .next (complete (sigEnc chip .w20 s.inPorts) s)

/-- SIG_ENC.24. -/
def execSigEnc24 (s : State) : Host.Outcome State Fault Refusal := .next (complete (sigEnc chip .w24 s.inPorts) s)

/-- SIG_ENC.28. -/
def execSigEnc28 (s : State) : Host.Outcome State Fault Refusal := .next (complete (sigEnc chip .w28 s.inPorts) s)

/-- SIG_ENC.32. -/
def execSigEnc32 (s : State) : Host.Outcome State Fault Refusal := .next (complete (sigEnc chip .w32 s.inPorts) s)

end Sys2Proof.Machine
end

