-- ==== Sys2Proof/Machine/Dispatch.lean ====
section
/-! DEFINITION. The meaning of each command (spec/60_exceptions.md R146 item 3). -/

namespace Sys2Proof.Machine

open Sys2Proof

def exec (i : Instr) (s : State) : Host.Outcome State Fault Refusal :=
  match i with
  | .decStd _ => Sys2Proof.Machine.execDecStd s
  | .encStd _ => Sys2Proof.Machine.execEncStd s
  | .decExt _ => Sys2Proof.Machine.execDecExt s
  | .encExt _ => Sys2Proof.Machine.execEncExt s
  | .pgnBits _ => Sys2Proof.Machine.execPgnBits s
  | .pgnDa _ => Sys2Proof.Machine.execPgnDa s
  | .pgnGe _ => Sys2Proof.Machine.execPgnGe s
  | .pgnMkdst _ => Sys2Proof.Machine.execPgnMkdst s
  | .pgnMkbc _ => Sys2Proof.Machine.execPgnMkbc s
  | .sigDec4 => Sys2Proof.Machine.execSigDec4 s
  | .sigDec8 => Sys2Proof.Machine.execSigDec8 s
  | .sigDec10 => Sys2Proof.Machine.execSigDec10 s
  | .sigDec12 => Sys2Proof.Machine.execSigDec12 s
  | .sigDec16 => Sys2Proof.Machine.execSigDec16 s
  | .sigDec20 => Sys2Proof.Machine.execSigDec20 s
  | .sigDec24 => Sys2Proof.Machine.execSigDec24 s
  | .sigDec28 => Sys2Proof.Machine.execSigDec28 s
  | .sigDec32 => Sys2Proof.Machine.execSigDec32 s
  | .sigEnc4 => Sys2Proof.Machine.execSigEnc4 s
  | .sigEnc8 => Sys2Proof.Machine.execSigEnc8 s
  | .sigEnc10 => Sys2Proof.Machine.execSigEnc10 s
  | .sigEnc12 => Sys2Proof.Machine.execSigEnc12 s
  | .sigEnc16 => Sys2Proof.Machine.execSigEnc16 s
  | .sigEnc20 => Sys2Proof.Machine.execSigEnc20 s
  | .sigEnc24 => Sys2Proof.Machine.execSigEnc24 s
  | .sigEnc28 => Sys2Proof.Machine.execSigEnc28 s
  | .sigEnc32 => Sys2Proof.Machine.execSigEnc32 s

end Sys2Proof.Machine
end

