-- ==== Sys2Proof/Machine/Step.lean ====
section
/-! DEFINITION. One step (spec/00_scope.md R8, spec/70_reset_and_hazards.md R175): the host's next event, which for a
request is the whole of R146. -/

namespace Sys2Proof.Machine

open Sys2Proof

/-- An accepted request (R146): the ports are sampled, a reserved byte is answered by name, any other runs. Each of
the two looks at `FAULT` first. -/
def runRequest (r : Request) (s : State) : Host.Outcome State Fault Refusal :=
  match decode r.cmd with
  | .ok i => exec i (samplePorts r.ports s)
  | .error _ => .next (reservedCommand (samplePorts r.ports s))

/-- What an event does to the block. A command before the first reset has no meaning (R171, U9), nor has a request whose
ports move before it is accepted (R174, U6). -/
def runEvent (e : HostEvent) (s : State) : Host.Outcome State Fault Refusal :=
  match e with
  | .request r => if s.resetDone then runRequest r s else .refused .commandBeforeReset
  | .reset => .next (applyReset s)
  | .requestThenReset _ => if s.resetDone then .next (applyReset s) else .refused .commandBeforeReset
  | .powerUp f c => .next (powerUp f c s)
  | .unstableRequest => .refused .unstableRequest

/-- One step: the host's next event, or no request at all. -/
def step (s : State) : Host.Outcome State Fault Refusal :=
  match s.host with
  | [] => .next (idle s)
  | e :: rest => runEvent e (takeEvent rest s)

/-- The host presents the command byte `w` next (log entry 4); the operand ports stay as they are. -/
def State.withFetchWord (s : State) (nbits w : Nat) : State :=
  presentCommand (BitVec.ofNat 8 (w % 2 ^ nbits)) s

end Sys2Proof.Machine
end

