-- ==== Sys2Proof/Safety.lean ====
section
/-! DEFINITION. How the outcomes of a run are read (spec/00_scope.md R8, spec/60_exceptions.md R149), the invariants
of the latch and of a response, which ports a command reads (spec/30_encoding.md R47), and the responses of a run
(spec/70_reset_and_hazards.md R177). -/

namespace Sys2Proof

open Sys2Proof.Machine

/-- The three readings of a response (R8, R149). -/
inductive Reading where
  | result | fault | refusal
  deriving DecidableEq, Repr

/-- How a model reads a status (R149): a violation and `FAULTED` are a fault, `ILLEGAL_CMD` a refusal, the rest results. -/
def readStatus : Status → Reading
  | .ok => .result
  | .rangeError => .result
  | .contractViolation => .fault
  | .illegalCmd => .refusal
  | .faulted => .fault

/-- The run has faulted (R149, R177): its `FAULT` is 1. -/
def hasFaulted (s : State) : Bool := decide (s.fault = 1#1)

/-- R12: `FAULT == 0` if and only if `FCAUSE == 0`, and 3 is never written. Before the first reset the latch holds any
value (U9), so the invariant asks nothing there. -/
def latchOk (s : State) : Bool :=
  !s.resetDone || (decide (s.fault = 0#1 ↔ s.fcause = 0#2) && decide (s.fcause ≠ 3#2))

/-- A response keeps to R14, R140, R149: data only with `OK`, a class code of R43, a faulted reading exactly when
`FAULT` is 1, and only a block that has been reset answers (the model's choice, log entries 5 and 15). -/
def responseOk (s : State) : Bool :=
  match s.rsp with
  | none => true
  | some r =>
    s.resetDone &&
    (decide (r.status = .ok) || decide (r.out = outDefault)) &&
    decide (r.out.cls.toNat ≤ 4) &&
    decide (readStatus r.status = .fault ↔ s.fault = 1#1)

/-- The invariant of the block: the latch is consistent and so is the response it shows. -/
def blockOk (s : State) : Bool := latchOk s && responseOk s

/-- The input ports a command reads agree (R47, column 'Reads'); `WSEL` is part of the command. -/
def readsAgree (i : Instr) (p q : InPorts) : Prop :=
  match i with
  | .decStd _ | .decExt _ => p.raw = q.raw
  | .encStd _ => p.prio = q.prio ∧ p.sa = q.sa
  | .encExt _ =>
    p.prio = q.prio ∧ p.edp = q.edp ∧ p.dp = q.dp ∧ p.pf = q.pf ∧ p.ps = q.ps ∧ p.sa = q.sa
  | .pgnBits _ | .pgnMkdst _ | .pgnMkbc _ => p.edp = q.edp ∧ p.dp = q.dp ∧ p.pf = q.pf ∧ p.ps = q.ps
  | .pgnDa _ | .pgnGe _ => p.pf = q.pf ∧ p.ps = q.ps
  | .sigDec4 | .sigDec8 | .sigDec10 | .sigDec12 | .sigDec16 | .sigDec20 | .sigDec24 | .sigDec28 | .sigDec32 =>
    p.raw = q.raw
  | .sigEnc4 | .sigEnc8 | .sigEnc10 | .sigEnc12 | .sigEnc16 | .sigEnc20 | .sigEnc24 | .sigEnc28 | .sigEnc32 =>
    p.cls = q.cls ∧ (p.cls = 0#3 → p.val = q.val)

/-- The output ports a command may drive (R47, column 'Drives on `OK`'): every other data port is at its default. -/
def drivesOnly (i : Instr) (o : OutPorts) : Prop :=
  match i with
  | .decStd _ => o = { outDefault with prio := o.prio, sa := o.sa }
  | .decExt _ =>
    o = { outDefault with prio := o.prio, edp := o.edp, dp := o.dp, pf := o.pf, ps := o.ps, sa := o.sa, tag := o.tag }
  | .encStd _ | .encExt _ | .pgnBits _ => o = { outDefault with raw := o.raw }
  | .pgnDa _ | .pgnGe _ => o = { outDefault with some := o.some, byte := o.byte }
  | .pgnMkdst _ | .pgnMkbc _ =>
    o = { outDefault with edp := o.edp, dp := o.dp, pf := o.pf, ps := o.ps, tag := o.tag }
  | .sigDec4 | .sigDec8 | .sigDec10 | .sigDec12 | .sigDec16 | .sigDec20 | .sigDec24 | .sigDec28 | .sigDec32 =>
    o = { outDefault with cls := o.cls, val := o.val }
  | .sigEnc4 | .sigEnc8 | .sigEnc10 | .sigEnc12 | .sigEnc16 | .sigEnc20 | .sigEnc24 | .sigEnc28 | .sigEnc32 =>
    o = { outDefault with raw := o.raw }

/-- The statuses a command may end in besides `OK` and `FAULTED` (R47, last column). -/
def mayAnswer (i : Instr) (st : Status) : Prop :=
  match i with
  | .decStd _ | .encStd _ | .decExt _ | .encExt _ => st = .contractViolation
  | .pgnBits _ | .pgnDa _ | .pgnGe _ => False
  | .pgnMkdst _ | .pgnMkbc _ => st = .rangeError
  | .sigDec4 | .sigDec8 | .sigDec10 | .sigDec12 | .sigDec16 | .sigDec20 | .sigDec24 | .sigDec28 | .sigDec32 =>
    st = .rangeError
  | .sigEnc4 | .sigEnc8 | .sigEnc10 | .sigEnc12 | .sigEnc16 | .sigEnc20 | .sigEnc24 | .sigEnc28 | .sigEnc32 =>
    st = .contractViolation ∨ st = .illegalCmd

/-- The responses of the next `n` steps, in order (R177: 'The observable result of a run is the sequence of responses'). -/
def responses : Nat → State → List Response
  | 0, _ => []
  | n + 1, s =>
    match step s with
    | .next t => t.rsp.toList ++ responses n t
    | .fault _ => []
    | .refused _ => []

/-- The state after `n` steps, or the fault or refusal that stopped them. -/
def runSteps (n : Nat) (s : State) : Host.Outcome State Fault Refusal := Host.Core.run Sys2Proof.core n s

/-- An event that issues a command and lets it be answered. -/
def isRequest : HostEvent → Bool
  | .request _ => true
  | .reset => false
  | .requestThenReset _ => false
  | .powerUp _ _ => false
  | .unstableRequest => false

end Sys2Proof
end

