-- ==== Sys2Proof/WellFormed.lean ====
section
/-! DEFINITION. Which terms are well formed: commands (all of them: each field has exactly the bits its encoding
gives it) and configurations (spec/40_signal.md R71, R75; spec/92_eei_decisions.md, 'Open parameters, collected'). -/

namespace Sys2Proof

open Sys2Proof.Machine

/-- A command is well formed. Every field of `Instr` is a bit vector of its encoding's width (R40), so no term
of `Instr` fails. -/
def instrWf : Instr → Bool
  | .decStd _ | .encStd _ | .decExt _ | .encExt _ => true
  | .pgnBits _ | .pgnDa _ | .pgnGe _ | .pgnMkdst _ | .pgnMkbc _ => true
  | .sigDec4 | .sigDec8 | .sigDec10 | .sigDec12 | .sigDec16 | .sigDec20 | .sigDec24 | .sigDec28 | .sigDec32 => true
  | .sigEnc4 | .sigEnc8 | .sigEnc10 | .sigEnc12 | .sigEnc16 | .sigEnc20 | .sigEnc24 | .sigEnc28 | .sigEnc32 => true

/-- R71: `0 <= v_hi < i_hi < r_hi < e_hi < MAX(W)`. -/
def cutsWf (w : Width) (c : SigCuts) : Bool :=
  decide (c.vHi < c.iHi) && decide (c.iHi < c.rHi) && decide (c.rHi < c.eHi) && decide (c.eHi < maxOf w)

/-- R75: a sentinel's constant is a raw value of W bits whose class is that sentinel. -/
def canonWf (cfg : Config) (w : Width) (c : Sentinel) : Bool :=
  decide ((cfg.sigcanon w c).toNat ≤ maxOf w) &&
    decide (classOf (cfg.sigtab w) (cfg.sigcanon w c).toNat = .sentinel c)

/-- What the source fixes of the two tables: the rows W = 4, 8, 10, the point 0xFB5 at 12 bits (R71), and
`SIGCANON(W, NotAvailable) = MAX(W)` (R75). -/
def sourceFixed (cfg : Config) : Bool :=
  decide (cfg.sigtab .w4 = ⟨0xA, 0xB, 0xD, 0xE⟩) &&
  decide (cfg.sigtab .w8 = ⟨0xFA, 0xFB, 0xFD, 0xFE⟩) &&
  decide (cfg.sigtab .w10 = ⟨0x3FA, 0x3FB, 0x3FD, 0x3FE⟩) &&
  decide (classOf (cfg.sigtab .w12) 0xFB5 = .sentinel .indicator) &&
  allWidths.all fun w => decide ((cfg.sigcanon w .notAvailable).toNat = maxOf w)

/-- A configuration a block may be built with. -/
def configWf (cfg : Config) : Bool :=
  (allWidths.all fun w => cutsWf w (cfg.sigtab w)) &&
  (allWidths.all fun w => allSentinels.all fun c => canonWf cfg w c) &&
  sourceFixed cfg

end Sys2Proof
end

