-- ==== Sys2Proof/Certificates/Slice0/Obligations.lean ====
section
/-! DEFINITION. The statements for the provers. The helpers in `SpecSide` write the spec's responses out as whole
states and its formulas in natural numbers, so that a statement does not lean on the model's own operations. -/

namespace Sys2Proof.SpecSide

open Sys2Proof Sys2Proof.Machine

/-- Every data port at its default (R14): 0, and 4 on `o_class`. -/
def noData : OutPorts := ⟨0#32, 0#3, 0#8, 0#8, 0#8, 0#1, 0#1, 0#1, 0#1, 0#8, 4#3, 0#32⟩

/-- The state after an answer that leaves the latch alone: only the response is new. -/
def answered (st : Status) (out : OutPorts) (s : State) : State := { s with rsp := some ⟨st, out⟩ }

/-- The state after a ContractViolation with cause code `c` (R147): only the latch and the response are new. -/
def violated (c : BitVec 2) (s : State) : State :=
  { s with fault := 1#1, fcause := c, rsp := some ⟨.contractViolation, noData⟩ }

/-- The block with its next event taken and a request's ports sampled: what a command of that request runs on. -/
def accepted (p : InPorts) (rest : List HostEvent) (s : State) : State := { s with host := rest, inPorts := p }

/-- A block that has been reset, whose next event is the request `r`. -/
abbrev presents (s : State) (r : Request) (rest : List HostEvent) : Prop :=
  s.resetDone = true ∧ s.host = .request r :: rest

/-- The command is answered `FAULTED` in every state whose latch is set (R144). -/
def answersFaulted (i : Instr) : Prop :=
  ∀ s : State, s.fault = 1#1 → exec i s = .next (answered .faulted noData s)

/-- The byte is answered `ILLEGAL_CMD` by a block that is not faulted, whatever its ports hold (R143). -/
def answersIllegal (b : Byte) : Prop :=
  ∀ (s : State) (p : InPorts) (rest : List HostEvent), presents s ⟨b, p⟩ rest → s.fault = 0#1 →
    step s = .next (answered .illegalCmd noData (accepted p rest s))

/-- A command run on `s` leaves `t` with one of the five outcomes (R140), and `o_status` shows its code (R44): the state
is the one found but for the response, and on a ContractViolation for the latch, which was clear. -/
def endsInOneOutcome (s t : State) : Prop :=
  ∃ r : Response, t.rsp = some r ∧
    ((r.status = .ok ∧ oStatus t = some 0#3 ∧ s.fault = 0#1 ∧ t = { s with rsp := some r }) ∨
     (r.status = .rangeError ∧ oStatus t = some 1#3 ∧ s.fault = 0#1 ∧ r.out = noData ∧
        t = { s with rsp := some r }) ∨
     (r.status = .contractViolation ∧ oStatus t = some 2#3 ∧ s.fault = 0#1 ∧ r.out = noData ∧ t.fault = 1#1 ∧
        (t.fcause = 1#2 ∨ t.fcause = 2#2) ∧ t = { s with fault := 1#1, fcause := t.fcause, rsp := some r }) ∨
     (r.status = .illegalCmd ∧ oStatus t = some 3#3 ∧ s.fault = 0#1 ∧ r.out = noData ∧
        t = { s with rsp := some r }) ∨
     (r.status = .faulted ∧ oStatus t = some 4#3 ∧ s.fault = 1#1 ∧ r.out = noData ∧
        t = { s with rsp := some r }))

/-- `MAX(W)`. -/
def maxRaw (w : Width) : Nat := 2 ^ widthBits w - 1

/-- The class code of a raw value by its cut points (R72, R43). -/
def codeBy (c : SigCuts) (r : Nat) : BitVec 3 :=
  if r ≤ c.vHi then 0#3 else if r ≤ c.iHi then 1#3 else if r ≤ c.rHi then 2#3 else if r ≤ c.eHi then 3#3 else 4#3

/-- The four sentinels by their class codes (R43). -/
def sentinelOf (c : BitVec 3) : Sentinel :=
  if c = 1#3 then .indicator else if c = 2#3 then .reserved else if c = 3#3 then .error else .notAvailable

/-- R71's closed forms: single values at the top for W of 4, 8 and 10, bands by the top byte for W of 12 and more. -/
def closedCuts (w : Width) : SigCuts :=
  if widthBits w ≤ 10 then ⟨maxRaw w - 5, maxRaw w - 4, maxRaw w - 2, maxRaw w - 1⟩
  else
    ⟨0xFB * 2 ^ (widthBits w - 8) - 1, 0xFC * 2 ^ (widthBits w - 8) - 1, 0xFE * 2 ^ (widthBits w - 8) - 1,
      0xFF * 2 ^ (widthBits w - 8) - 1⟩

/-- The first raw value of a sentinel's range (R71). -/
def rangeLo (c : SigCuts) : Sentinel → Nat
  | .indicator => c.vHi + 1
  | .reserved => c.iHi + 1
  | .error => c.rHi + 1
  | .notAvailable => c.eHi + 1

/-- The last raw value of a sentinel's range (R71). -/
def rangeHi (w : Width) (c : SigCuts) : Sentinel → Nat
  | .indicator => c.iHi
  | .reserved => c.rHi
  | .error => c.eHi
  | .notAvailable => maxRaw w

/-- The ports a decoded signal is fed back on (R78). -/
def feedSignal (o : OutPorts) (p : InPorts) : InPorts := { p with cls := o.cls, val := o.val }

/-- Reserved command bytes and class codes (R55), by `op = cmd / 16` and `ws = cmd % 16`. -/
def reservedCode (op ws : Nat) (p : InPorts) : Prop :=
  op = 0 ∨ 12 ≤ op ∨ ((op = 10 ∨ op = 11) ∧ 9 ≤ ws) ∨ (op = 11 ∧ 5 ≤ p.cls.toNat)

/-- A ContractViolation with cause 1 (R141). -/
def priorityFails (op : Nat) (p : InPorts) : Prop :=
  (op = 1 ∧ 0x7FF < p.raw.toNat) ∨ ((op = 2 ∨ op = 4) ∧ 8 ≤ p.prio.toNat) ∨ (op = 3 ∧ 0x1FFFFFFF < p.raw.toNat)

/-- A ContractViolation with cause 2 (R141). -/
def valueFails (op ws : Nat) (p : InPorts) : Prop :=
  op = 11 ∧ p.cls.toNat = 0 ∧ (chip.sigtab (allWidths.getD ws .w32)).vHi < p.val.toNat

/-- A RangeError (R142). -/
def rangeFails (op ws : Nat) (p : InPorts) : Prop :=
  (op = 10 ∧ maxRaw (allWidths.getD ws .w32) < p.raw.toNat) ∨ (op = 8 ∧ 240 ≤ p.pf.toNat) ∨
    (op = 9 ∧ p.pf.toNat < 240)

/-- The standard identifier's fields (R48). -/
def stdFields (raw : Nat) : OutPorts := { noData with prio := BitVec.ofNat 3 (raw / 256), sa := BitVec.ofNat 8 raw }

/-- The extended identifier's fields (R49) and the tag (R101). -/
def extFields (raw : Nat) : OutPorts :=
  { noData with
    prio := BitVec.ofNat 3 (raw / 2 ^ 26)
    edp := BitVec.ofNat 1 (raw / 2 ^ 25)
    dp := BitVec.ofNat 1 (raw / 2 ^ 24)
    pf := BitVec.ofNat 8 (raw / 2 ^ 16)
    ps := BitVec.ofNat 8 (raw / 2 ^ 8)
    sa := BitVec.ofNat 8 raw
    tag := if 240 ≤ raw / 2 ^ 16 % 256 then 1#1 else 0#1 }

/-- `priority<<8 | source_address` as a number (R48). -/
def stdNat (p : InPorts) : Nat := p.prio.toNat * 2 ^ 8 + p.sa.toNat

/-- The 18-bit PGN as a number (R50). -/
def pgnNat (p : InPorts) : Nat := p.edp.toNat * 2 ^ 17 + p.dp.toNat * 2 ^ 16 + p.pf.toNat * 2 ^ 8 + p.ps.toNat

/-- The extended identifier as a number (R49). -/
def extNat (p : InPorts) : Nat :=
  p.prio.toNat * 2 ^ 26 + p.edp.toNat * 2 ^ 25 + p.dp.toNat * 2 ^ 24 + p.pf.toNat * 2 ^ 16 + p.ps.toNat * 2 ^ 8 +
    p.sa.toNat

/-- A PGN echoed with a tag (R106, R107). -/
def echoed (p : InPorts) (tag : Bit) : OutPorts :=
  { noData with edp := p.edp, dp := p.dp, pf := p.pf, ps := p.ps, tag := tag }

/-- `Some(b)` (R102, R103). -/
def someByte (b : Byte) : OutPorts := { noData with some := 1#1, byte := b }

/-- A decoded signal (R73): its class code, and the raw value for a Value only. -/
def signalFields (c : SigCuts) (raw : Word) : OutPorts :=
  { noData with cls := codeBy c raw.toNat, val := if raw.toNat ≤ c.vHi then raw else 0#32 }

/-- An encoded signal (R76). -/
def signalRaw (w : Width) (p : InPorts) : Word :=
  if p.cls.toNat = 0 then p.val else chip.sigcanon w (sentinelOf p.cls)

/-- The data ports of an `OK` response, operation by operation (R146 item 3). -/
def okData (op ws : Nat) (p : InPorts) : OutPorts :=
  if op = 1 then stdFields p.raw.toNat
  else if op = 2 then { noData with raw := BitVec.ofNat 32 (stdNat p) }
  else if op = 3 then extFields p.raw.toNat
  else if op = 4 then { noData with raw := BitVec.ofNat 32 (extNat p) }
  else if op = 5 then { noData with raw := BitVec.ofNat 32 (pgnNat p) }
  else if op = 6 then (if p.pf.toNat < 240 then someByte p.ps else noData)
  else if op = 7 then (if 240 ≤ p.pf.toNat then someByte p.ps else noData)
  else if op = 8 then echoed p 0#1
  else if op = 9 then echoed p 1#1
  else if op = 10 then signalFields (chip.sigtab (allWidths.getD ws .w32)) p.raw
  else { noData with raw := signalRaw (allWidths.getD ws .w32) p }

end Sys2Proof.SpecSide

open Sys2Proof Sys2Proof.Machine Sys2Proof.SpecSide

/-! ### Encoding -/

/-- Bytes written out from R40 to R42 decode to the commands they stand for, and three reserved bytes are refused by name. -/
def Obligations.SampleBytesDecodeAsTabulated : Prop :=
  decode 0x10#8 = .ok (.decStd 0#4) ∧ decode 0x2F#8 = .ok (.encStd 15#4) ∧ decode 0x30#8 = .ok (.decExt 0#4) ∧
  decode 0x47#8 = .ok (.encExt 7#4) ∧ decode 0x50#8 = .ok (.pgnBits 0#4) ∧ decode 0x6A#8 = .ok (.pgnDa 10#4) ∧
  decode 0x99#8 = .ok (.pgnMkbc 9#4) ∧ decode 0xA3#8 = .ok .sigDec12 ∧ decode 0xA8#8 = .ok .sigDec32 ∧
  decode 0xB0#8 = .ok .sigEnc4 ∧ decode 0xB4#8 = .ok .sigEnc16 ∧
  decode 0x00#8 = .error (.reservedOp 0#4) ∧ decode 0xC0#8 = .error (.reservedOp 12#4) ∧
  decode 0xAF#8 = .error (.reservedWsel 10#4 15#4)

/-- No bit of an encoding is dropped: decoding an encoded command gives it back, for every command and every `WSEL`
it carries. -/
def Obligations.DecodeOfEncodeIsTheInstr : Prop :=
  ∀ i : Instr, instrWf i = true → decode (encode i) = .ok i

/-- No two bytes decode to one term of `Instr`: encoding a decoded byte gives it back. This is the model's choice
(DESIGN CHOICE, log entry 9): `Instr` keeps the ignored `WSEL` nibble, while by R40 sixteen bytes select one operation. -/
def Obligations.EncodeOfDecodeIsTheByte : Prop :=
  ∀ (b : Byte) (i : Instr), decode b = .ok i → encode i = b

/-- The legal bytes are those that lie in a row of the opcode table, and no byte lies in two rows. -/
def Obligations.EachByteLiesInAtMostOneRow : Prop :=
  ∀ b : Byte,
    ((∃ i, decode b = .ok i) ↔ ∃ j, rowMatches (rowOf j) b = true) ∧
    ∀ i j, decode b = .ok i → rowMatches (rowOf j) b = true → rowOf j = rowOf i

/-- R55, R143: which codes are reserved, how many bytes that is, and that a command with one is answered
`ILLEGAL_CMD` (code 3 on `o_status`) with default data and no change of state while `FAULT` is 0. -/
def Obligations.ReservedCodesAreIllegalCommands : Prop :=
  (∀ b : Byte, (∃ e, decode b = .error e) ↔
    (b.toNat / 16 = 0 ∨ 12 ≤ b.toNat / 16 ∨ ((b.toNat / 16 = 10 ∨ b.toNat / 16 = 11) ∧ 9 ≤ b.toNat % 16))) ∧
  ((List.range 256).filter fun n => n / 16 = 0 || 12 ≤ n / 16).length = 80 ∧
  ((List.range 256).filter fun n => (n / 16 = 10 || n / 16 = 11) && 9 ≤ n % 16).length = 14 ∧
  ((List.range 256).filter fun n => (decode (BitVec.ofNat 8 n)).toBool).length = 162 ∧
  (∀ b : Byte, (∃ e, decode b = .error e) → answersIllegal b) ∧
  (∀ (w : Width) (s : State), s.fault = 0#1 → 5 ≤ s.inPorts.cls.toNat →
    exec (sigEncOf w) s = .next (answered .illegalCmd noData s)) ∧
  (∀ s : State, oStatus (answered .illegalCmd noData s) = some 3#3)

/-- R40: for an operation that is not a signal operation all 16 values of `WSEL` behave the same. -/
def Obligations.WselIgnoredByOtherOperations : Prop :=
  ∀ (s : State) (b c : Byte) (p : InPorts) (rest : List HostEvent),
    presents s ⟨b, p⟩ rest → 1 ≤ b.toNat / 16 → b.toNat / 16 ≤ 9 → c.toNat / 16 = b.toNat / 16 →
    step s = step { s with host := .request ⟨c, p⟩ :: rest }

/-! ### The CAN-ID parser -/

/-- R120: `DEC_STD`. -/
def Obligations.DecStdSplitsAnElevenBitIdentifier : Prop :=
  ∀ w : Nibble,
    decode (0x10#8 ||| w.setWidth 8) = .ok (.decStd w) ∧
    (∀ s : State, s.fault = 0#1 → s.inPorts.raw.toNat ≤ 0x7FF →
      exec (.decStd w) s = .next (answered .ok (stdFields s.inPorts.raw.toNat) s)) ∧
    (∀ s : State, s.fault = 0#1 → 0x7FF < s.inPorts.raw.toNat →
      exec (.decStd w) s = .next (violated 1#2 s)) ∧
    answersFaulted (.decStd w)

/-- R121: `ENC_STD`. -/
def Obligations.EncStdJoinsAnElevenBitIdentifier : Prop :=
  ∀ w : Nibble,
    decode (0x20#8 ||| w.setWidth 8) = .ok (.encStd w) ∧
    (∀ s : State, s.fault = 0#1 → s.inPorts.prio.toNat < 8 →
      exec (.encStd w) s = .next (answered .ok { noData with raw := BitVec.ofNat 32 (stdNat s.inPorts) } s) ∧
      stdNat s.inPorts < 2 ^ 11) ∧
    (∀ s : State, s.fault = 0#1 → 8 ≤ s.inPorts.prio.toNat →
      exec (.encStd w) s = .next (violated 1#2 s)) ∧
    answersFaulted (.encStd w)

/-- R122: `DEC_EXT`. -/
def Obligations.DecExtSplitsATwentyNineBitIdentifier : Prop :=
  ∀ w : Nibble,
    decode (0x30#8 ||| w.setWidth 8) = .ok (.decExt w) ∧
    (∀ s : State, s.fault = 0#1 → s.inPorts.raw.toNat ≤ 0x1FFFFFFF →
      exec (.decExt w) s = .next (answered .ok (extFields s.inPorts.raw.toNat) s)) ∧
    (∀ s : State, s.fault = 0#1 → 0x1FFFFFFF < s.inPorts.raw.toNat →
      exec (.decExt w) s = .next (violated 1#2 s)) ∧
    answersFaulted (.decExt w)

/-- R123: `ENC_EXT`. -/
def Obligations.EncExtJoinsATwentyNineBitIdentifier : Prop :=
  ∀ w : Nibble,
    decode (0x40#8 ||| w.setWidth 8) = .ok (.encExt w) ∧
    (∀ s : State, s.fault = 0#1 → s.inPorts.prio.toNat < 8 →
      exec (.encExt w) s = .next (answered .ok { noData with raw := BitVec.ofNat 32 (extNat s.inPorts) } s) ∧
      extNat s.inPorts < 2 ^ 29) ∧
    (∀ s : State, s.fault = 0#1 → 8 ≤ s.inPorts.prio.toNat →
      exec (.encExt w) s = .next (violated 1#2 s)) ∧
    answersFaulted (.encExt w)

/-- R126: all four operations (`decStd`, `encStd`, `decExt`, `encExt`) assert `priority < 8`; an encode tests `i_prio`,
a decode everything above the field below the priority, so that no set bit of `i_raw` is dropped. -/
def Obligations.PriorityAssertionFailsExactlyAboveSeven : Prop :=
  ∀ (w : Nibble) (s : State), s.fault = 0#1 →
    (exec (.encStd w) s = .next (violated 1#2 s) ↔ 8 ≤ s.inPorts.prio.toNat) ∧
    (exec (.encExt w) s = .next (violated 1#2 s) ↔ 8 ≤ s.inPorts.prio.toNat) ∧
    (exec (.decStd w) s = .next (violated 1#2 s) ↔ 8 ≤ (s.inPorts.raw >>> 8).toNat) ∧
    (exec (.decExt w) s = .next (violated 1#2 s) ↔ 8 ≤ (s.inPorts.raw >>> 26).toNat) ∧
    (8 ≤ s.inPorts.prio.toNat ↔ s.inPorts.prio.extractLsb 7 3 ≠ 0#5) ∧
    (8 ≤ (s.inPorts.raw >>> 8).toNat ↔ 0x7FF < s.inPorts.raw.toNat) ∧
    (8 ≤ (s.inPorts.raw >>> 8).toNat ↔ s.inPorts.raw.extractLsb 31 11 ≠ 0#21) ∧
    (8 ≤ (s.inPorts.raw >>> 26).toNat ↔ 0x1FFFFFFF < s.inPorts.raw.toNat) ∧
    (8 ≤ (s.inPorts.raw >>> 26).toNat ↔ s.inPorts.raw.extractLsb 31 29 ≠ 0#3)

/-- The standard round trip, both ways (spec/42_identifier.md, section 4: 'The two are inverse bijections'). -/
def Obligations.StandardIdentifierRoundTrips : Prop :=
  ∀ w v : Nibble,
    (∀ s : State, s.fault = 0#1 → s.inPorts.raw.toNat ≤ 0x7FF →
      ∃ (p : BitVec 3) (a : Byte),
        exec (.decStd w) s = .next (answered .ok { noData with prio := p, sa := a } s) ∧
        ∀ t : State, t.fault = 0#1 → t.inPorts.prio = p.setWidth 8 → t.inPorts.sa = a →
          exec (.encStd v) t = .next (answered .ok { noData with raw := s.inPorts.raw } t)) ∧
    (∀ t : State, t.fault = 0#1 → t.inPorts.prio.toNat < 8 →
      ∃ r : Word, r.toNat ≤ 0x7FF ∧
        exec (.encStd v) t = .next (answered .ok { noData with raw := r } t) ∧
        ∀ s : State, s.fault = 0#1 → s.inPorts.raw = r →
          exec (.decStd w) s =
            .next (answered .ok { noData with prio := t.inPorts.prio.setWidth 3, sa := t.inPorts.sa } s))

/-- The extended round trip, both ways (spec/42_identifier.md, section 4). -/
def Obligations.ExtendedIdentifierRoundTrips : Prop :=
  ∀ w v : Nibble,
    (∀ s : State, s.fault = 0#1 → s.inPorts.raw.toNat ≤ 0x1FFFFFFF →
      ∃ o : OutPorts,
        exec (.decExt w) s = .next (answered .ok o s) ∧
        ∀ t : State, t.fault = 0#1 → t.inPorts.prio = o.prio.setWidth 8 → t.inPorts.edp = o.edp →
          t.inPorts.dp = o.dp → t.inPorts.pf = o.pf → t.inPorts.ps = o.ps → t.inPorts.sa = o.sa →
          exec (.encExt v) t = .next (answered .ok { noData with raw := s.inPorts.raw } t)) ∧
    (∀ t : State, t.fault = 0#1 → t.inPorts.prio.toNat < 8 →
      ∃ r : Word, r.toNat ≤ 0x1FFFFFFF ∧
        exec (.encExt v) t = .next (answered .ok { noData with raw := r } t) ∧
        ∀ s : State, s.fault = 0#1 → s.inPorts.raw = r →
          ∃ o : OutPorts, exec (.decExt w) s = .next (answered .ok o s) ∧
            o.prio = t.inPorts.prio.setWidth 3 ∧ o.edp = t.inPorts.edp ∧ o.dp = t.inPorts.dp ∧
            o.pf = t.inPorts.pf ∧ o.ps = t.inPorts.ps ∧ o.sa = t.inPorts.sa)

/-- The PGN sits inside the extended identifier shifted left by 8 (spec/30_encoding.md, section 3): the PGN number of
the decoded fields is `raw[25:8]`, and the identifier is its priority, that number and its source address. -/
def Obligations.PgnSitsInsideTheIdentifier : Prop :=
  ∀ (w v : Nibble) (s t : State), s.fault = 0#1 → t.fault = 0#1 → s.inPorts.raw.toNat ≤ 0x1FFFFFFF →
    t.inPorts.edp = (extFields s.inPorts.raw.toNat).edp → t.inPorts.dp = (extFields s.inPorts.raw.toNat).dp →
    t.inPorts.pf = (extFields s.inPorts.raw.toNat).pf → t.inPorts.ps = (extFields s.inPorts.raw.toNat).ps →
    exec (.decExt w) s = .next (answered .ok (extFields s.inPorts.raw.toNat) s) ∧
    exec (.pgnBits v) t =
      .next (answered .ok { noData with raw := (s.inPorts.raw.extractLsb 25 8).setWidth 32 } t) ∧
    s.inPorts.raw =
      ((extFields s.inPorts.raw.toNat).prio.setWidth 32 <<< 26) |||
      ((s.inPorts.raw.extractLsb 25 8).setWidth 32 <<< 8) ||| (extFields s.inPorts.raw.toNat).sa.setWidth 32

/-- A bare PGN number is taken apart by presenting it shifted left by 8 to `DEC_EXT` (spec/41_pgn.md, section 4), and
a value below 0x800 is an extended identifier of priority 0 (spec/42_identifier.md, section 4). -/
def Obligations.ShiftedPgnNumberComesApartInDecExt : Prop :=
  ∀ (w v : Nibble) (s t : State), s.fault = 0#1 → t.fault = 0#1 →
    s.inPorts.raw = BitVec.ofNat 32 (pgnNat t.inPorts * 2 ^ 8) →
    exec (.pgnBits v) t = .next (answered .ok { noData with raw := s.inPorts.raw >>> 8 } t) ∧
    exec (.decExt w) s =
      .next (answered .ok
        { echoed t.inPorts (if 240 ≤ t.inPorts.pf.toNat then 1#1 else 0#1) with prio := 0#3, sa := 0#8 } s) ∧
    ∀ u : State, u.fault = 0#1 → u.inPorts.raw.toNat < 0x800 →
      ∃ o : OutPorts, exec (.decExt w) u = .next (answered .ok o u) ∧ o.prio = 0#3 ∧ o.pf = 0#8

/-! ### The PGN format router -/

/-- R105: `PGN_BITS`. -/
def Obligations.PgnBitsPacksEighteenBits : Prop :=
  ∀ w : Nibble,
    decode (0x50#8 ||| w.setWidth 8) = .ok (.pgnBits w) ∧
    (∀ s : State, s.fault = 0#1 →
      exec (.pgnBits w) s = .next (answered .ok { noData with raw := BitVec.ofNat 32 (pgnNat s.inPorts) } s) ∧
      pgnNat s.inPorts < 2 ^ 18) ∧
    answersFaulted (.pgnBits w) ∧
    (∀ s t s' t' : State, s.fault = 0#1 → t.fault = 0#1 → exec (.pgnBits w) s = .next s' →
      exec (.pgnBits w) t = .next t' → s'.rsp = t'.rsp →
      s.inPorts.edp = t.inPorts.edp ∧ s.inPorts.dp = t.inPorts.dp ∧ s.inPorts.pf = t.inPorts.pf ∧
      s.inPorts.ps = t.inPorts.ps) ∧
    (∀ n : Nat, n ≤ 0x3FFFF → ∃ (edp dp : Bit) (pf ps : Byte), ∀ s : State, s.fault = 0#1 →
      s.inPorts.edp = edp → s.inPorts.dp = dp → s.inPorts.pf = pf → s.inPorts.ps = ps →
      exec (.pgnBits w) s = .next (answered .ok { noData with raw := BitVec.ofNat 32 n } s))

/-- R102: `PGN_DA`. -/
def Obligations.PgnDaIsSomeBelowTwoHundredForty : Prop :=
  ∀ w : Nibble,
    decode (0x60#8 ||| w.setWidth 8) = .ok (.pgnDa w) ∧
    (∀ s : State, s.fault = 0#1 → s.inPorts.pf.toNat < 240 →
      exec (.pgnDa w) s = .next (answered .ok (someByte s.inPorts.ps) s)) ∧
    (∀ s : State, s.fault = 0#1 → 240 ≤ s.inPorts.pf.toNat →
      exec (.pgnDa w) s = .next (answered .ok noData s)) ∧
    answersFaulted (.pgnDa w)

/-- R103: `PGN_GE`. -/
def Obligations.PgnGeIsSomeFromTwoHundredForty : Prop :=
  ∀ w : Nibble,
    decode (0x70#8 ||| w.setWidth 8) = .ok (.pgnGe w) ∧
    (∀ s : State, s.fault = 0#1 → 240 ≤ s.inPorts.pf.toNat →
      exec (.pgnGe w) s = .next (answered .ok (someByte s.inPorts.ps) s)) ∧
    (∀ s : State, s.fault = 0#1 → s.inPorts.pf.toNat < 240 →
      exec (.pgnGe w) s = .next (answered .ok noData s)) ∧
    answersFaulted (.pgnGe w)

/-- Exactly one of the two accessors is Some, and it carries the specific byte (spec/41_pgn.md, section 2). -/
def Obligations.ExactlyOneAccessorIsSome : Prop :=
  ∀ (w v : Nibble) (s : State), s.fault = 0#1 →
    ∃ a b : OutPorts,
      exec (.pgnDa w) s = .next (answered .ok a s) ∧ exec (.pgnGe v) s = .next (answered .ok b s) ∧
      a.some.toNat + b.some.toNat = 1 ∧
      (a.some = 1#1 → a.byte = s.inPorts.ps ∧ b.byte = 0#8) ∧ (b.some = 1#1 → b.byte = s.inPorts.ps ∧ a.byte = 0#8)

/-- R106: `PGN_MKDST`. -/
def Obligations.PgnMkdstTakesFormatsBelowTwoHundredForty : Prop :=
  ∀ w : Nibble,
    decode (0x80#8 ||| w.setWidth 8) = .ok (.pgnMkdst w) ∧
    (∀ s : State, s.fault = 0#1 → s.inPorts.pf.toNat < 240 →
      exec (.pgnMkdst w) s = .next (answered .ok (echoed s.inPorts 0#1) s)) ∧
    (∀ s : State, s.fault = 0#1 → 240 ≤ s.inPorts.pf.toNat →
      exec (.pgnMkdst w) s = .next (answered .rangeError noData s)) ∧
    answersFaulted (.pgnMkdst w)

/-- R107: `PGN_MKBC`. The tag is 1, never 0 (C7). -/
def Obligations.PgnMkbcTakesFormatsFromTwoHundredForty : Prop :=
  ∀ w : Nibble,
    decode (0x90#8 ||| w.setWidth 8) = .ok (.pgnMkbc w) ∧
    (∀ s : State, s.fault = 0#1 → 240 ≤ s.inPorts.pf.toNat →
      exec (.pgnMkbc w) s = .next (answered .ok (echoed s.inPorts 1#1) s)) ∧
    (∀ s : State, s.fault = 0#1 → s.inPorts.pf.toNat < 240 →
      exec (.pgnMkbc w) s = .next (answered .rangeError noData s)) ∧
    answersFaulted (.pgnMkbc w)

/-- Exactly one constructor accepts a PGN, it is `PGN_MKDST` if and only if `PGN_DA` is Some, and its tag is the one
`DEC_EXT` gives a decoded PGN of the same fields (spec/41_pgn.md, section 4). -/
def Obligations.ExactlyOneConstructorAccepts : Prop :=
  ∀ (w : Nibble) (s d : State), s.fault = 0#1 → d.fault = 0#1 → d.inPorts.raw.toNat ≤ 0x1FFFFFFF →
    (extFields d.inPorts.raw.toNat).pf = s.inPorts.pf →
    ∃ a x : OutPorts,
      exec (.pgnDa w) s = .next (answered .ok a s) ∧ exec (.decExt w) d = .next (answered .ok x d) ∧
      ((a.some = 1#1 ∧ x.tag = 0#1 ∧ exec (.pgnMkdst w) s = .next (answered .ok (echoed s.inPorts x.tag) s) ∧
          exec (.pgnMkbc w) s = .next (answered .rangeError noData s)) ∨
       (a.some = 0#1 ∧ x.tag = 1#1 ∧ exec (.pgnMkdst w) s = .next (answered .rangeError noData s) ∧
          exec (.pgnMkbc w) s = .next (answered .ok (echoed s.inPorts x.tag) s)))

/-- R100: no operation of the PGN family raises a ContractViolation; R101: Broadcast is `pf[7:4] == 0xF`, read off the
format byte alone. -/
def Obligations.PgnFamilyNeverFaultsAndRoutesOnTheTopNibble : Prop :=
  ∀ (w : Nibble) (s : State),
    (∀ i, i = .pgnBits w ∨ i = .pgnDa w ∨ i = .pgnGe w ∨ i = .pgnMkdst w ∨ i = .pgnMkbc w →
      ∃ t r, exec i s = .next t ∧ t.rsp = some r ∧ r.status ≠ .contractViolation ∧ t.fault = s.fault ∧
        t.fcause = s.fcause) ∧
    (s.fault = 0#1 →
      (exec (.pgnDa w) s = .next (answered .ok noData s) ↔ s.inPorts.pf.extractLsb 7 4 = 0xF#4) ∧
      (exec (.pgnMkdst w) s = .next (answered .rangeError noData s) ↔ s.inPorts.pf.extractLsb 7 4 = 0xF#4))

/-! ### The signal classifier -/

/-- R73, R74: `SIG_DEC.W` at every width (`sigDecOf w` is `sigDec4`, `sigDec8`, `sigDec10`, `sigDec12`, `sigDec16`,
`sigDec20`, `sigDec24`, `sigDec28`, `sigDec32`). The class is read off `SIGTAB(W)`, whatever the block is built with; the
worked examples use the source's own points. -/
def Obligations.SigDecClassifiesARawValue : Prop :=
  (∀ w : Width,
    decode (0xA0#8 ||| (wselOfWidth w).setWidth 8) = .ok (sigDecOf w) ∧
    (∀ s : State, s.fault = 0#1 → s.inPorts.raw.toNat ≤ maxRaw w →
      exec (sigDecOf w) s = .next (answered .ok (signalFields (chip.sigtab w) s.inPorts.raw) s)) ∧
    (∀ s : State, s.fault = 0#1 → maxRaw w < s.inPorts.raw.toNat →
      exec (sigDecOf w) s = .next (answered .rangeError noData s)) ∧
    answersFaulted (sigDecOf w) ∧
    signalFields (chip.sigtab w) 0#32 = { noData with cls := 0#3, val := 0#32 } ∧
    signalFields (chip.sigtab w) (BitVec.ofNat 32 (maxRaw w)) = { noData with cls := 4#3, val := 0#32 } ∧
    codeBy (chip.sigtab w) (chip.sigtab w).vHi = 0#3 ∧ codeBy (chip.sigtab w) ((chip.sigtab w).vHi + 1) = 1#3 ∧
    (∀ s : State, widthBits w = containerBits w → s.inPorts.raw.toNat < 2 ^ containerBits w →
      s.inPorts.raw.toNat ≤ maxRaw w) ∧
    (∀ s : State, w = .w32 → s.inPorts.raw.toNat ≤ maxRaw w)) ∧
  (∀ n : Nibble, 9 ≤ n.toNat → answersIllegal (0xA0#8 ||| n.setWidth 8)) ∧
  signalFields (chip.sigtab .w12) 0xFB5#32 = { noData with cls := 1#3, val := 0#32 } ∧
  signalFields (chip.sigtab .w8) 0xFA#32 = { noData with cls := 0#3, val := 0xFA#32 }

/-- `SIG_DEC.W` answers `OK` up to `MAX(W)`, `RANGE_ERROR` exactly above it, never at W = 32, and never sets `FAULT`
(spec/40_signal.md, section 5). -/
def Obligations.SigDecIsTotalUpToMax : Prop :=
  ∀ (w : Width) (s : State),
    ∃ t r, exec (sigDecOf w) s = .next t ∧ t.rsp = some r ∧ t.fault = s.fault ∧ t.fcause = s.fcause ∧
      (s.fault = 0#1 → (r.status = .ok ↔ s.inPorts.raw.toNat ≤ maxRaw w) ∧
        (r.status = .rangeError ↔ maxRaw w < s.inPorts.raw.toNat) ∧ (w = .w32 → r.status = .ok))

/-- R76, R77: `SIG_ENC.W` at every width (`sigEncOf w` is `sigEnc4`, `sigEnc8`, `sigEnc10`, `sigEnc12`, `sigEnc16`,
`sigEnc20`, `sigEnc24`, `sigEnc28`, `sigEnc32`), over the tables the block is built with. -/
def Obligations.SigEncBuildsARawValue : Prop :=
  (∀ w : Width,
    decode (0xB0#8 ||| (wselOfWidth w).setWidth 8) = .ok (sigEncOf w) ∧
    (∀ s : State, s.fault = 0#1 → s.inPorts.cls = 0#3 → s.inPorts.val.toNat ≤ (chip.sigtab w).vHi →
      exec (sigEncOf w) s = .next (answered .ok { noData with raw := s.inPorts.val } s)) ∧
    (∀ s : State, s.fault = 0#1 → s.inPorts.cls = 0#3 → (chip.sigtab w).vHi < s.inPorts.val.toNat →
      exec (sigEncOf w) s = .next (violated 2#2 s)) ∧
    (∀ s : State, s.fault = 0#1 → 1 ≤ s.inPorts.cls.toNat → s.inPorts.cls.toNat ≤ 4 →
      exec (sigEncOf w) s =
        .next (answered .ok { noData with raw := chip.sigcanon w (sentinelOf s.inPorts.cls) } s)) ∧
    (∀ s : State, s.fault = 0#1 → 5 ≤ s.inPorts.cls.toNat →
      exec (sigEncOf w) s = .next (answered .illegalCmd noData s)) ∧
    answersFaulted (sigEncOf w) ∧
    (∀ c : Sentinel, (chip.sigcanon w c).toNat ≤ maxRaw w) ∧ (chip.sigtab w).vHi < maxRaw w) ∧
  (∀ n : Nibble, 9 ≤ n.toNat → answersIllegal (0xB0#8 ||| n.setWidth 8)) ∧
  0xFA ≤ (chip.sigtab .w8).vHi ∧ chip.sigcanon .w16 .notAvailable = 0xFFFF#32

/-- The table of R71 follows its two closed forms, keeps the order the rule asks for, and for W of 12 and more the class
depends on the top byte alone. For W of 12 and more the table is the spec's own choice (decision D19, log entry 6). -/
def Obligations.ClassTableFollowsItsClosedForms : Prop :=
  ∀ w : Width,
    chip.sigtab w = closedCuts w ∧ cutsWf w (chip.sigtab w) = true ∧
    (12 ≤ widthBits w → ∀ r : Nat, r ≤ maxRaw w →
      codeBy (chip.sigtab w) r =
        (if r / 2 ^ (widthBits w - 8) ≤ 0xFA then 0#3
         else if r / 2 ^ (widthBits w - 8) = 0xFB then 1#3
         else if r / 2 ^ (widthBits w - 8) ≤ 0xFD then 2#3
         else if r / 2 ^ (widthBits w - 8) = 0xFE then 3#3 else 4#3))

/-- The five classes are a partition of [0, MAX(W)] and none is empty, for every table a block may be built with
(spec/40_signal.md, section 2). -/
def Obligations.ClassesPartitionTheRawValues : Prop :=
  ∀ (cfg : Config) (w : Width), configWf cfg = true →
    (∀ r : Nat, r ≤ maxOf w →
      (classOf (cfg.sigtab w) r = .value ↔ r ≤ (cfg.sigtab w).vHi) ∧
      (∀ c : Sentinel, classOf (cfg.sigtab w) r = .sentinel c ↔
        rangeLo (cfg.sigtab w) c ≤ r ∧ r ≤ rangeHi w (cfg.sigtab w) c)) ∧
    (∀ c : Sentinel, rangeLo (cfg.sigtab w) c ≤ rangeHi w (cfg.sigtab w) c ∧ rangeHi w (cfg.sigtab w) c ≤ maxOf w)

/-- The canonical constants are the highest raw values of their classes. Where a class has several raw values this is
the spec's own choice (decision D20, log entry 6). -/
def Obligations.CanonicalConstantsAreTheHighestOfTheirClass : Prop :=
  ∀ (w : Width) (c : Sentinel),
    (chip.sigcanon w c).toNat = rangeHi w (chip.sigtab w) c ∧
    classOf (chip.sigtab w) (chip.sigcanon w c).toNat = .sentinel c ∧
    (chip.sigcanon w .notAvailable).toNat = maxRaw w

/-- Decoding an encoded signal gives it back, for every table and every constants a block may be built with
(spec/40_signal.md, section 5, item 1). -/
def Obligations.DecodedEncodedSignalIsTheSignal : Prop :=
  ∀ (cfg : Config) (w : Width) (p q : InPorts) (o : OutPorts), configWf cfg = true →
    sigEnc cfg w p = .ok o → q.raw = o.raw →
    ∃ x : OutPorts, sigDec cfg w q = .ok x ∧ x.cls = p.cls ∧ x.val = (if p.cls = 0#3 then p.val else 0#32)

/-- Encoding a decoded raw value gives it back exactly when it is a Value or the constant of its class, and that constant
otherwise, for every table and every constants a block may be built with (spec/40_signal.md, section 5, item 2). -/
def Obligations.EncodedDecodedRawIsTheRawOrTheConstant : Prop :=
  ∀ (cfg : Config) (w : Width) (p q : InPorts), configWf cfg = true → p.raw.toNat ≤ maxOf w →
    ∃ o x : OutPorts, sigDec cfg w p = .ok o ∧ sigEnc cfg w (feedSignal o q) = .ok x ∧
      (classOf (cfg.sigtab w) p.raw.toNat = .value → x.raw = p.raw) ∧
      (∀ c, classOf (cfg.sigtab w) p.raw.toNat = .sentinel c → x.raw = cfg.sigcanon w c)

/-- Which raw values do not survive `SIG_DEC.W` then `SIG_ENC.W` on the block (spec/40_signal.md, section 5, item 2):
0xC at W = 4, 0xFC at W = 8, 0x3FC at W = 10, and for W of 12 and more the sentinel values whose free low bits are not all
ones or whose top byte is 0xFC. All of it rests on the spec's own choice of the constants (decision D20: Reserved has
several raw values at every width), the last on the class table too (decision D19; both log entry 6). -/
def Obligations.RawValuesThatDoNotRoundTrip : Prop :=
  ∀ (w : Width) (s t : State), s.fault = 0#1 → t.fault = 0#1 → s.inPorts.raw.toNat ≤ maxRaw w →
    t.inPorts.cls = (signalFields (chip.sigtab w) s.inPorts.raw).cls →
    t.inPorts.val = (signalFields (chip.sigtab w) s.inPorts.raw).val →
    exec (sigDecOf w) s = .next (answered .ok (signalFields (chip.sigtab w) s.inPorts.raw) s) ∧
    ∃ r : Word, exec (sigEncOf w) t = .next (answered .ok { noData with raw := r } t) ∧
      (r ≠ s.inPorts.raw ↔
        (w = .w4 ∧ s.inPorts.raw = 0xC#32) ∨ (w = .w8 ∧ s.inPorts.raw = 0xFC#32) ∨
        (w = .w10 ∧ s.inPorts.raw = 0x3FC#32) ∨
        (12 ≤ widthBits w ∧ 0xFB ≤ s.inPorts.raw.toNat / 2 ^ (widthBits w - 8) ∧
          (s.inPorts.raw.toNat % 2 ^ (widthBits w - 8) ≠ 2 ^ (widthBits w - 8) - 1 ∨
            s.inPorts.raw.toNat / 2 ^ (widthBits w - 8) = 0xFC)))

/-! ### The step -/

/-- A request whose byte decodes to `i` runs `exec i` on the state with that event taken and the request's ports
sampled; nothing else is added. -/
def Obligations.StepRunsTheDecodedCommand : Prop :=
  ∀ (s : State) (r : Request) (rest : List HostEvent) (i : Instr),
    presents s r rest → decode r.cmd = .ok i → instrWf i = true →
    step s = exec i (accepted r.ports rest s)

/-- R146: the whole step function, byte by byte: `FAULT` first, then the reserved codes, then the operation's own check,
then its result. The next latch is (1, cause) on `CONTRACT_VIOLATION` and unchanged otherwise. -/
def Obligations.StepChecksInTheFixedOrder : Prop :=
  ∀ (s : State) (r : Request) (rest : List HostEvent), presents s r rest →
    (s.fault = 1#1 → step s = .next (answered .faulted noData (accepted r.ports rest s))) ∧
    (s.fault = 0#1 → reservedCode (r.cmd.toNat / 16) (r.cmd.toNat % 16) r.ports →
      step s = .next (answered .illegalCmd noData (accepted r.ports rest s))) ∧
    (s.fault = 0#1 → ¬ reservedCode (r.cmd.toNat / 16) (r.cmd.toNat % 16) r.ports →
      priorityFails (r.cmd.toNat / 16) r.ports →
      step s = .next (violated 1#2 (accepted r.ports rest s))) ∧
    (s.fault = 0#1 → ¬ reservedCode (r.cmd.toNat / 16) (r.cmd.toNat % 16) r.ports →
      valueFails (r.cmd.toNat / 16) (r.cmd.toNat % 16) r.ports →
      step s = .next (violated 2#2 (accepted r.ports rest s))) ∧
    (s.fault = 0#1 → ¬ reservedCode (r.cmd.toNat / 16) (r.cmd.toNat % 16) r.ports →
      rangeFails (r.cmd.toNat / 16) (r.cmd.toNat % 16) r.ports →
      step s = .next (answered .rangeError noData (accepted r.ports rest s))) ∧
    (s.fault = 0#1 → ¬ reservedCode (r.cmd.toNat / 16) (r.cmd.toNat % 16) r.ports →
      ¬ priorityFails (r.cmd.toNat / 16) r.ports →
      ¬ valueFails (r.cmd.toNat / 16) (r.cmd.toNat % 16) r.ports →
      ¬ rangeFails (r.cmd.toNat / 16) (r.cmd.toNat % 16) r.ports →
      step s = .next
        (answered .ok (okData (r.cmd.toNat / 16) (r.cmd.toNat % 16) r.ports) (accepted r.ports rest s)))

/-- R144: a faulted block answers every request `FAULTED` (code 4 on `o_status`), legal or reserved, and no state
changes. -/
def Obligations.FaultedBlockAnswersFaulted : Prop :=
  (∀ i : Instr, answersFaulted i) ∧
  (∀ (s : State) (r : Request) (rest : List HostEvent), presents s r rest → s.fault = 1#1 →
    step s = .next (answered .faulted noData (accepted r.ports rest s))) ∧
  (∀ s : State, oStatus (answered .faulted noData s) = some 4#3)

/-- R140: a command, and a request on a block that has been reset, ends in exactly one of the five statuses, with its code
of R44 on `o_status`; in all but `OK` the data ports carry their defaults, in all but `CONTRACT_VIOLATION` nothing changes
but the response, and that one turns `FAULT` from 0 to 1. A request runs on the state with its event taken and its ports
sampled. -/
def Obligations.EveryCommandIsAnsweredOnce : Prop :=
  (∀ (i : Instr) (s : State), ∃ t, exec i s = .next t ∧ endsInOneOutcome s t) ∧
  (∀ (s : State) (q : Request) (rest : List HostEvent), presents s q rest →
    ∃ t, step s = .next t ∧ endsInOneOutcome (accepted q.ports rest s) t)

/-- R147: entry into the faulted state. -/
def Obligations.ViolationEntersTheFaultedState : Prop :=
  ∀ (i : Instr) (s t : State) (r : Response), exec i s = .next t → t.rsp = some r → r.status = .contractViolation →
    ∃ c : BitVec 2, (c = 1#2 ∨ c = 2#2) ∧ t = violated c s ∧ oFault t = 1#1 ∧ oFcause t = c ∧
      oStatus t = some 2#3 ∧ ∀ j : Instr, exec j t = .next (answered .faulted noData t)

/-- R141: every cause of a ContractViolation, and no other. -/
def Obligations.ViolationCausesAreTheseAlone : Prop :=
  ∀ (i : Instr) (s : State),
    (exec i s = .next (violated 1#2 s) ↔
      s.fault = 0#1 ∧ ∃ x : Nibble,
        ((i = .encStd x ∨ i = .encExt x) ∧ 8 ≤ s.inPorts.prio.toNat) ∨
        (i = .decStd x ∧ 0x7FF < s.inPorts.raw.toNat) ∨ (i = .decExt x ∧ 0x1FFFFFFF < s.inPorts.raw.toNat)) ∧
    (exec i s = .next (violated 2#2 s) ↔
      s.fault = 0#1 ∧ ∃ w : Width,
        i = sigEncOf w ∧ s.inPorts.cls = 0#3 ∧ (chip.sigtab w).vHi < s.inPorts.val.toNat) ∧
    (∀ t r, exec i s = .next t → t.rsp = some r → r.status = .contractViolation →
      exec i s = .next (violated 1#2 s) ∨ exec i s = .next (violated 2#2 s))

/-- R142: every cause of a RangeError, and no other; its code is 1 and it changes no state. -/
def Obligations.RangeErrorCausesAreTheseAlone : Prop :=
  ∀ (i : Instr) (s : State),
    (exec i s = .next (answered .rangeError noData s) ↔
      s.fault = 0#1 ∧
        ((∃ w : Width, i = sigDecOf w ∧ maxRaw w < s.inPorts.raw.toNat) ∨
         (∃ x : Nibble, i = .pgnMkdst x ∧ 240 ≤ s.inPorts.pf.toNat) ∨
         (∃ x : Nibble, i = .pgnMkbc x ∧ s.inPorts.pf.toNat < 240))) ∧
    (∀ t r, exec i s = .next t → t.rsp = some r → r.status = .rangeError →
      t = answered .rangeError noData s ∧ oStatus t = some 1#3)

/-- R148: no command leaves the faulted state or overwrites `FCAUSE`; of all events but a power-up only a reset (R170,
R176) does. R148 speaks of a block in use: a block that has not been reset, of which R171 says that no rule applies, and
power-up, an event of the model (log entry 5), are left out by the premises, and `ResetLeavesTheLatchClear` says what the
model does to the latch there. -/
def Obligations.OnlyResetLeavesTheFaultedState : Prop :=
  (∀ (i : Instr) (s : State), s.fault = 1#1 →
    ∃ t, exec i s = .next t ∧ t.fault = 1#1 ∧ t.fcause = s.fcause) ∧
  (∀ s t : State, s.resetDone = true → (∀ f c rest, s.host ≠ .powerUp f c :: rest) → step s = .next t → s.fault = 1#1 →
    ¬ (t.fault = 1#1 ∧ t.fcause = s.fcause) →
    ∃ rest, (s.host = .reset :: rest ∨ ∃ r, s.host = .requestThenReset r :: rest) ∧ t.fault = 0#1 ∧ t.fcause = 0#2)

/-- Every step keeps the block's invariant: `FAULT == 0` if and only if `FCAUSE == 0`, `FCAUSE` is never 3, and a
response carries data only with `OK`, a legal class code, and a faulted status exactly when `FAULT` is 1. That the latch
is asked nothing before the first reset, and that no response stands there, is the model's choice where U9 gives nothing
(log entries 5 and 15). -/
def Obligations.StepKeepsTheBlockInvariant : Prop :=
  ∀ s t : State, blockOk s = true → step s = .next t → blockOk t = true

/-- The invariant of `StepKeepsTheBlockInvariant` holds right after reset. -/
def Obligations.ResetMeetsTheBlockInvariant : Prop := blockOk State.reset = true

/-- R23: after reset `FAULT` and `FCAUSE` are 0, the status ports show it and no response stands, until a command is
answered; and who writes and reads the two: a ContractViolation sets them, reset clears them, every command reads
`FAULT`. Power-up, named beside them, is an event of the model that leaves the latch at any value (U9, log entry 5), and
that no response stands before the first reset (log entry 15), and that the latch stays as it is there until a reset or
another power-up (log entry 16), are the model's choices. -/
def Obligations.ResetLeavesTheLatchClear : Prop :=
  (State.reset.fault = 0#1 ∧ State.reset.fcause = 0#2 ∧ oFault State.reset = 0#1 ∧ oFcause State.reset = 0#2 ∧
    rspValid State.reset = false ∧ hasFaulted State.reset = false) ∧
  (∀ (s : State) (rest : List HostEvent), s.host = .reset :: rest →
    ∃ t, step s = .next t ∧ t.fault = 0#1 ∧ t.fcause = 0#2 ∧ oFault t = 0#1 ∧ oFcause t = 0#2 ∧
      rspValid t = false) ∧
  (∀ s t : State, step s = .next t → rspValid t = true → ∃ r rest, s.host = .request r :: rest) ∧
  (∀ s t : State, step s = .next t → t.fault ≠ s.fault ∨ t.fcause ≠ s.fcause →
    ∃ rest,
      ((s.host = .reset :: rest ∨ ∃ r, s.host = .requestThenReset r :: rest) ∧ t.fault = 0#1 ∧ t.fcause = 0#2) ∨
      ((∃ r, s.host = .request r :: rest) ∧ oStatus t = some 2#3 ∧ s.fault = 0#1 ∧ t.fault = 1#1 ∧
        (t.fcause = 1#2 ∨ t.fcause = 2#2)) ∨
      (∃ f c, s.host = .powerUp f c :: rest ∧ t.fault = f ∧ t.fcause = c)) ∧
  (∀ i : Instr, answersFaulted i)

/-- R170, R176: a reset clears the latch from every state; in place of a response it drops the request, and no violation
of that request is recorded; and no request clears it. -/
def Obligations.ResetClearsTheLatchAndDropsTheRequest : Prop :=
  (∀ (s : State) (rest : List HostEvent), s.host = .reset :: rest →
    step s = .next { s with host := rest, fault := 0#1, fcause := 0#2, rsp := none, resetDone := true }) ∧
  (∀ (s : State) (r : Request) (rest : List HostEvent), s.resetDone = true → s.host = .requestThenReset r :: rest →
    step s = .next { s with host := rest, fault := 0#1, fcause := 0#2, rsp := none }) ∧
  (∀ (s : State) (r : Request) (rest : List HostEvent), presents s r rest → s.fault = 1#1 →
    ∃ t, step s = .next t ∧ t.fault = 1#1 ∧ t.fcause = s.fcause)

/-- After power-up the latch holds any value, and every request before the first reset is refused; so is a request
whose ports move before it is accepted (R171, R174; treatments of U9 and U6; log entries 5 and 7). -/
def Obligations.CommandsWithoutMeaningAreRefused : Prop :=
  (∀ (s : State) (f : Bit) (c : BitVec 2) (rest : List HostEvent), s.host = .powerUp f c :: rest →
    ∃ t, step s = .next t ∧ t.fault = f ∧ t.fcause = c ∧ t.resetDone = false ∧ t.host = rest) ∧
  (∀ (s : State) (f : Bit) (c : BitVec 2) (r : Request) (rest : List HostEvent),
    s.host = .powerUp f c :: .request r :: rest →
    ∃ t, step s = .next t ∧ t.fault = f ∧ t.fcause = c ∧ step t = .refused .commandBeforeReset) ∧
  (∀ (s : State) (r : Request) (rest : List HostEvent), s.resetDone = false → s.host = .request r :: rest →
    step s = .refused .commandBeforeReset) ∧
  (∀ (s : State) (r : Request) (rest : List HostEvent), s.resetDone = false → s.host = .requestThenReset r :: rest →
    step s = .refused .commandBeforeReset) ∧
  (∀ (s : State) (rest : List HostEvent), s.host = .unstableRequest :: rest →
    step s = .refused .unstableRequest)

/-- Requests with the same byte and the same used operands get the same response and the same latch, whatever else the
two blocks hold (spec/00_scope.md, section 5: 'whatever came between them'). -/
def Obligations.ResponseDependsOnTheRequestAndTheLatchAlone : Prop :=
  ∀ (s t : State) (q r : Request) (rest more : List HostEvent), presents s q rest → presents t r more →
    s.fault = t.fault → s.fcause = t.fcause → q.cmd = r.cmd →
    (∀ i, decode q.cmd = .ok i → readsAgree i q.ports r.ports) →
    ∃ s' t', step s = .next s' ∧ step t = .next t' ∧ s'.rsp = t'.rsp ∧ s'.fault = t'.fault ∧ s'.fcause = t'.fcause

/-- R47: the ports a command reads, the ports it drives on `OK`, and the statuses it may end in. -/
def Obligations.CommandsUseThePortsTabulated : Prop :=
  (∀ (i : Instr) (s : State) (q : InPorts), readsAgree i s.inPorts q →
    ∃ t u, exec i s = .next t ∧ exec i { s with inPorts := q } = .next u ∧ t.rsp = u.rsp ∧ t.fault = u.fault ∧
      t.fcause = u.fcause) ∧
  (∀ (i : Instr) (s t : State) (r : Response), exec i s = .next t → t.rsp = some r →
    (r.status = .ok → drivesOnly i r.out) ∧ (r.status ≠ .ok → r.out = noData) ∧
    (r.status = .ok ∨ r.status = .faulted ∨ mayAnswer i r.status)) ∧
  (∀ b : Byte, (∃ e, decode b = .error e) → answersIllegal b)

/-- A command that does not violate a contract may be repeated: the same response, the same latch (spec/20_memory.md,
section 3, 'idempotent'). -/
def Obligations.CommandsWithoutAViolationAreIdempotent : Prop :=
  ∀ (i : Instr) (s t : State), exec i s = .next t → t.rsp ≠ some ⟨.contractViolation, noData⟩ →
    exec i t = .next t

/-- While no command violates a contract the order of two requests changes neither response (spec/20_memory.md,
section 4). -/
def Obligations.ResponsesDoNotDependOnTheOrder : Prop :=
  ∀ (s : State) (q r : Request), s.resetDone = true → s.fault = 0#1 →
    ∀ a b t, responses 2 { s with host := [.request q, .request r] } = [a, b] →
      runSteps 2 { s with host := [.request q, .request r] } = .next t → t.fault = 0#1 →
      responses 2 { s with host := [.request r, .request q] } = [b, a]

/-- From a faulted block on, every command of a run is answered `FAULTED` and the latch keeps the first cause
(spec/60_exceptions.md, section 3). -/
def Obligations.FaultedRunsStayFaulted : Prop :=
  ∀ (n : Nat) (s : State), s.fault = 1#1 → s.resetDone = true → n ≤ s.host.length →
    (∀ e ∈ s.host, isRequest e = true) →
    responses n s = List.replicate n ⟨.faulted, noData⟩ ∧
    ∃ t, runSteps n s = .next t ∧ t.fault = 1#1 ∧ t.fcause = s.fcause

/-- The frame of all 27 commands: a next state differs in the response, and in the latch on a ContractViolation alone. -/
def Obligations.CommandsChangeOnlyTheResponseAndTheLatch : Prop :=
  ∀ (i : Instr) (s t : State), exec i s = .next t →
    t.inPorts = s.inPorts ∧ t.host = s.host ∧ t.resetDone = s.resetDone ∧
    (t.fault ≠ s.fault ∨ t.fcause ≠ s.fcause → ∃ out, t.rsp = some ⟨.contractViolation, out⟩)

/-- A step takes exactly the host's first event, gives a response exactly when that is a request, and with no event left
changes nothing but the response (spec/70_reset_and_hazards.md, sections 2 and 5). The event list is log entry 4, and that
a power-up or an idle step before the first reset gives no response is log entry 15, and that an idle step there leaves the
latch is log entry 16. -/
def Obligations.StepTakesOneEventOfTheHost : Prop :=
  ∀ s t : State, step s = .next t →
    t.host = s.host.tail ∧ (t.rsp.isSome = true ↔ ∃ r rest, s.host = .request r :: rest) ∧
    (s.host = [] → t = { s with rsp := none })
end

