-- ==== Sys2Proof/Laws/State.lean ====
section
/-! SUPPORT. What each update of the state does to each field of it, once, so that no proof unfolds a record update. -/

namespace Sys2Proof.Machine

open Sys2Proof

@[simp] theorem respond_fault (st : Status) (out : OutPorts) (s : State) : (respond st out s).fault = s.fault := rfl
@[simp] theorem respond_fcause (st : Status) (out : OutPorts) (s : State) : (respond st out s).fcause = s.fcause := rfl
@[simp] theorem respond_inPorts (st : Status) (out : OutPorts) (s : State) : (respond st out s).inPorts = s.inPorts := rfl
@[simp] theorem respond_rsp (st : Status) (out : OutPorts) (s : State) : (respond st out s).rsp = some ⟨st, out⟩ := rfl
@[simp] theorem respond_host (st : Status) (out : OutPorts) (s : State) : (respond st out s).host = s.host := rfl
@[simp] theorem respond_resetDone (st : Status) (out : OutPorts) (s : State) : (respond st out s).resetDone = s.resetDone := rfl

@[simp] theorem raiseViolation_fault (c : Cause) (s : State) : (raiseViolation c s).fault = 1#1 := rfl
@[simp] theorem raiseViolation_fcause (c : Cause) (s : State) : (raiseViolation c s).fcause = causeCode c := rfl
@[simp] theorem raiseViolation_inPorts (c : Cause) (s : State) : (raiseViolation c s).inPorts = s.inPorts := rfl
@[simp] theorem raiseViolation_rsp (c : Cause) (s : State) : (raiseViolation c s).rsp = some ⟨.contractViolation, outDefault⟩ := rfl
@[simp] theorem raiseViolation_host (c : Cause) (s : State) : (raiseViolation c s).host = s.host := rfl
@[simp] theorem raiseViolation_resetDone (c : Cause) (s : State) : (raiseViolation c s).resetDone = s.resetDone := rfl

@[simp] theorem applyReset_fault (s : State) : (applyReset s).fault = 0#1 := rfl
@[simp] theorem applyReset_fcause (s : State) : (applyReset s).fcause = 0#2 := rfl
@[simp] theorem applyReset_inPorts (s : State) : (applyReset s).inPorts = s.inPorts := rfl
@[simp] theorem applyReset_rsp (s : State) : (applyReset s).rsp = none := rfl
@[simp] theorem applyReset_host (s : State) : (applyReset s).host = s.host := rfl
@[simp] theorem applyReset_resetDone (s : State) : (applyReset s).resetDone = true := rfl

@[simp] theorem powerUp_fault (f : Bit) (c : BitVec 2) (s : State) : (powerUp f c s).fault = f := rfl
@[simp] theorem powerUp_fcause (f : Bit) (c : BitVec 2) (s : State) : (powerUp f c s).fcause = c := rfl
@[simp] theorem powerUp_inPorts (f : Bit) (c : BitVec 2) (s : State) : (powerUp f c s).inPorts = s.inPorts := rfl
@[simp] theorem powerUp_rsp (f : Bit) (c : BitVec 2) (s : State) : (powerUp f c s).rsp = none := rfl
@[simp] theorem powerUp_host (f : Bit) (c : BitVec 2) (s : State) : (powerUp f c s).host = s.host := rfl
@[simp] theorem powerUp_resetDone (f : Bit) (c : BitVec 2) (s : State) : (powerUp f c s).resetDone = false := rfl

@[simp] theorem idle_fault (s : State) : (idle s).fault = s.fault := rfl
@[simp] theorem idle_fcause (s : State) : (idle s).fcause = s.fcause := rfl
@[simp] theorem idle_inPorts (s : State) : (idle s).inPorts = s.inPorts := rfl
@[simp] theorem idle_rsp (s : State) : (idle s).rsp = none := rfl
@[simp] theorem idle_host (s : State) : (idle s).host = s.host := rfl
@[simp] theorem idle_resetDone (s : State) : (idle s).resetDone = s.resetDone := rfl

@[simp] theorem samplePorts_fault (p : InPorts) (s : State) : (samplePorts p s).fault = s.fault := rfl
@[simp] theorem samplePorts_fcause (p : InPorts) (s : State) : (samplePorts p s).fcause = s.fcause := rfl
@[simp] theorem samplePorts_inPorts (p : InPorts) (s : State) : (samplePorts p s).inPorts = p := rfl
@[simp] theorem samplePorts_rsp (p : InPorts) (s : State) : (samplePorts p s).rsp = s.rsp := rfl
@[simp] theorem samplePorts_host (p : InPorts) (s : State) : (samplePorts p s).host = s.host := rfl
@[simp] theorem samplePorts_resetDone (p : InPorts) (s : State) : (samplePorts p s).resetDone = s.resetDone := rfl

@[simp] theorem takeEvent_fault (rest : List HostEvent) (s : State) : (takeEvent rest s).fault = s.fault := rfl
@[simp] theorem takeEvent_fcause (rest : List HostEvent) (s : State) : (takeEvent rest s).fcause = s.fcause := rfl
@[simp] theorem takeEvent_inPorts (rest : List HostEvent) (s : State) : (takeEvent rest s).inPorts = s.inPorts := rfl
@[simp] theorem takeEvent_rsp (rest : List HostEvent) (s : State) : (takeEvent rest s).rsp = s.rsp := rfl
@[simp] theorem takeEvent_host (rest : List HostEvent) (s : State) : (takeEvent rest s).host = rest := rfl
@[simp] theorem takeEvent_resetDone (rest : List HostEvent) (s : State) : (takeEvent rest s).resetDone = s.resetDone := rfl

@[simp] theorem presentCommand_fault (b : Byte) (s : State) : (presentCommand b s).fault = s.fault := rfl
@[simp] theorem presentCommand_fcause (b : Byte) (s : State) : (presentCommand b s).fcause = s.fcause := rfl
@[simp] theorem presentCommand_inPorts (b : Byte) (s : State) : (presentCommand b s).inPorts = s.inPorts := rfl
@[simp] theorem presentCommand_rsp (b : Byte) (s : State) : (presentCommand b s).rsp = s.rsp := rfl
@[simp] theorem presentCommand_host (b : Byte) (s : State) : (presentCommand b s).host = .request ⟨b, s.inPorts⟩ :: s.host := rfl
@[simp] theorem presentCommand_resetDone (b : Byte) (s : State) : (presentCommand b s).resetDone = true := rfl

end Sys2Proof.Machine
end

