-- ==== Sys2Proof/Laws/Ops.lean ====
section
/-! SUPPORT. What the shared operations of a step can do, once each. -/

namespace Sys2Proof.Machine

open Sys2Proof

@[simp] theorem complete_inPorts (r : Result) (s : State) : (complete r s).inPorts = s.inPorts := by
  unfold complete; split
  · rfl
  · cases r <;> rfl

@[simp] theorem complete_host (r : Result) (s : State) : (complete r s).host = s.host := by
  unfold complete; split
  · rfl
  · cases r <;> rfl

@[simp] theorem complete_resetDone (r : Result) (s : State) : (complete r s).resetDone = s.resetDone := by
  unfold complete; split
  · rfl
  · cases r <;> rfl

/-- A faulted block answers `FAULTED` whatever the command (R144). -/
theorem complete_of_faulted (r : Result) {s : State} (h : s.fault = 1#1) :
    complete r s = respond .faulted outDefault s := by
  simp [complete, h]

theorem not_faulted {s : State} (h : s.fault = 0#1) : s.fault ≠ 1#1 := by
  rw [h]; decide

/-- One bit is 0 or 1. -/
theorem fault_zero_or_one (s : State) : s.fault = 0#1 ∨ s.fault = 1#1 := by
  generalize s.fault = b
  revert b
  decide

theorem complete_ok (o : OutPorts) {s : State} (h : s.fault = 0#1) : complete (.ok o) s = respond .ok o s := by
  simp [complete, h]

theorem complete_rangeError {s : State} (h : s.fault = 0#1) :
    complete .rangeError s = respond .rangeError outDefault s := by
  simp [complete, h]

theorem complete_contractViolation (c : Cause) {s : State} (h : s.fault = 0#1) :
    complete (.contractViolation c) s = raiseViolation c s := by
  simp [complete, h]

theorem complete_illegalCmd {s : State} (h : s.fault = 0#1) :
    complete .illegalCmd s = respond .illegalCmd outDefault s := by
  simp [complete, h]

/-- Everything the completion of a command can do (R140, R146). -/
theorem complete_cases (r : Result) (s : State) :
    (s.fault = 1#1 ∧ complete r s = respond .faulted outDefault s) ∨
    (s.fault = 0#1 ∧
      ((∃ o, r = .ok o ∧ complete r s = respond .ok o s) ∨
       (r = .rangeError ∧ complete r s = respond .rangeError outDefault s) ∨
       (∃ c, r = .contractViolation c ∧ complete r s = raiseViolation c s) ∨
       (r = .illegalCmd ∧ complete r s = respond .illegalCmd outDefault s))) := by
  rcases fault_zero_or_one s with h | h
  · refine Or.inr ⟨h, ?_⟩
    cases r with
    | ok o => exact .inl ⟨o, rfl, complete_ok o h⟩
    | rangeError => exact .inr (.inl ⟨rfl, complete_rangeError h⟩)
    | contractViolation c => exact .inr (.inr (.inl ⟨c, rfl, complete_contractViolation c h⟩))
    | illegalCmd => exact .inr (.inr (.inr ⟨rfl, complete_illegalCmd h⟩))
  · exact .inl ⟨h, complete_of_faulted r h⟩

/-- A completion always gives a response. -/
theorem complete_rsp_isSome (r : Result) (s : State) : (complete r s).rsp.isSome = true := by
  rcases complete_cases r s with ⟨-, h⟩ | ⟨-, ⟨o, -, h⟩ | ⟨-, h⟩ | ⟨c, -, h⟩ | ⟨-, h⟩⟩ <;> rw [h] <;> rfl

end Sys2Proof.Machine
end

