-- ==== Sys2Proof/Laws/Exec.lean ====
section
/-! SUPPORT. What running a command can do, once: every command completes with the result of its own rule, which is
a function of the sampled ports. -/

namespace Sys2Proof.Machine

open Sys2Proof

/-- The result of a command's own rule (R146 item 3). -/
def resultOf (i : Instr) (p : InPorts) : Result :=
  match i with
  | .decStd _ => decStd p
  | .encStd _ => encStd p
  | .decExt _ => decExt p
  | .encExt _ => encExt p
  | .pgnBits _ => pgnBits p
  | .pgnDa _ => pgnDa p
  | .pgnGe _ => pgnGe p
  | .pgnMkdst _ => pgnMkdst p
  | .pgnMkbc _ => pgnMkbc p
  | .sigDec4 => sigDec chip .w4 p
  | .sigDec8 => sigDec chip .w8 p
  | .sigDec10 => sigDec chip .w10 p
  | .sigDec12 => sigDec chip .w12 p
  | .sigDec16 => sigDec chip .w16 p
  | .sigDec20 => sigDec chip .w20 p
  | .sigDec24 => sigDec chip .w24 p
  | .sigDec28 => sigDec chip .w28 p
  | .sigDec32 => sigDec chip .w32 p
  | .sigEnc4 => sigEnc chip .w4 p
  | .sigEnc8 => sigEnc chip .w8 p
  | .sigEnc10 => sigEnc chip .w10 p
  | .sigEnc12 => sigEnc chip .w12 p
  | .sigEnc16 => sigEnc chip .w16 p
  | .sigEnc20 => sigEnc chip .w20 p
  | .sigEnc24 => sigEnc chip .w24 p
  | .sigEnc28 => sigEnc chip .w28 p
  | .sigEnc32 => sigEnc chip .w32 p

/-- Running a command completes it with its result. -/
theorem exec_eq_complete (i : Instr) (s : State) : exec i s = .next (complete (resultOf i s.inPorts) s) := by
  cases i <;> rfl

/-- The inversion of `exec`: its next state is the completion of the command's result. -/
theorem exec_next {i : Instr} {s t : State} (h : exec i s = .next t) : t = complete (resultOf i s.inPorts) s := by
  rw [exec_eq_complete] at h
  exact (Host.Outcome.next.inj h).symm

end Sys2Proof.Machine
end

