-- ==== Sys2Proof/Laws/Operands.lean ====
section
/-! SUPPORT. The unpacker and the packer in numbers (spec/30_encoding.md R53, R54): a slice is a quotient and a
remainder, and packing fields that do not overlap is addition. -/

namespace Sys2Proof.Machine

open Sys2Proof

/-- R53 in numbers. -/
theorem unpack_toNat (v : Word) (hi lo : Nat) : (unpack v hi lo).toNat = v.toNat / 2 ^ lo % 2 ^ (hi - lo + 1) := by
  simp [unpack, BitVec.extractLsb, Nat.shiftRight_eq_div_pow]

/-- A slice is the number above its low end, cut to its width. -/
theorem unpack_eq_ofNat (v : Word) (hi lo : Nat) :
    unpack v hi lo = BitVec.ofNat (hi - lo + 1) (v.toNat / 2 ^ lo) := by
  apply BitVec.eq_of_toNat_eq
  rw [unpack_toNat, BitVec.toNat_ofNat]

theorem zext_toNat {n : Nat} (f : BitVec n) (h : n ≤ 32) : (zext f).toNat = f.toNat := by
  simp only [zext, BitVec.toNat_setWidth]
  exact Nat.mod_eq_of_lt (lt_of_lt_of_le f.isLt (Nat.pow_le_pow_right (by decide) h))

@[simp] theorem pack_nil : pack [] = 0 := rfl

/-- R54: when the rest lies below the field's position and the field fits above it, the OR is a sum. -/
theorem pack_cons_toNat (f : Word) (p : Nat) (rest : List (Word × Nat)) (hrest : (pack rest).toNat < 2 ^ p)
    (hf : f.toNat * 2 ^ p < 2 ^ 32) : (pack ((f, p) :: rest)).toNat = f.toNat * 2 ^ p + (pack rest).toNat := by
  have hshift : (f <<< p).toNat = f.toNat * 2 ^ p := by
    rw [BitVec.toNat_shiftLeft, Nat.shiftLeft_eq, Nat.mod_eq_of_lt hf]
  rw [pack, BitVec.toNat_or, hshift, ← Nat.shiftLeft_eq, Nat.shiftLeft_add_eq_or_of_lt hrest]

/-- R48 in numbers, for a priority that fits its slot. -/
theorem packStd_toNat (prio sa : Byte) (h : prio.toNat < 8) :
    (packStd prio sa).toNat = prio.toNat * 2 ^ 8 + sa.toNat := by
  have hs := sa.isLt
  have h0 : (pack [(zext sa, 0)]).toNat = sa.toNat := by
    rw [pack_cons_toNat _ _ _ (by simp) (by rw [zext_toNat _ (by decide)]; omega), zext_toNat _ (by decide)]
    simp
  rw [packStd, pack_cons_toNat _ _ _ (by omega) (by rw [zext_toNat _ (by decide)]; omega), h0,
    zext_toNat _ (by decide)]

/-- R50 in numbers. -/
theorem packPgn_toNat (edp dp : Bit) (pf ps : Byte) :
    (packPgn edp dp pf ps).toNat = edp.toNat * 2 ^ 17 + dp.toNat * 2 ^ 16 + pf.toNat * 2 ^ 8 + ps.toNat := by
  have he := edp.isLt
  have hd := dp.isLt
  have hf := pf.isLt
  have hs := ps.isLt
  have h0 : (pack [(zext ps, 0)]).toNat = ps.toNat := by
    rw [pack_cons_toNat _ _ _ (by simp) (by rw [zext_toNat _ (by decide)]; omega), zext_toNat _ (by decide)]
    simp
  have h1 : (pack [(zext pf, 8), (zext ps, 0)]).toNat = pf.toNat * 2 ^ 8 + ps.toNat := by
    rw [pack_cons_toNat _ _ _ (by omega) (by rw [zext_toNat _ (by decide)]; omega), h0, zext_toNat _ (by decide)]
  have h2 : (pack [(zext dp, 16), (zext pf, 8), (zext ps, 0)]).toNat =
      dp.toNat * 2 ^ 16 + (pf.toNat * 2 ^ 8 + ps.toNat) := by
    rw [pack_cons_toNat _ _ _ (by omega) (by rw [zext_toNat _ (by decide)]; omega), h1, zext_toNat _ (by decide)]
  rw [packPgn, pack_cons_toNat _ _ _ (by omega) (by rw [zext_toNat _ (by decide)]; omega), h2,
    zext_toNat _ (by decide)]
  omega

/-- The extended identifier is its priority, its PGN number and its source address, each at its place (R49, R51). -/
theorem packExt_toNat (prio : Byte) (edp dp : Bit) (pf ps sa : Byte) (h : prio.toNat < 8) :
    (packExt prio edp dp pf ps sa).toNat =
      prio.toNat * 2 ^ 26 + edp.toNat * 2 ^ 25 + dp.toNat * 2 ^ 24 + pf.toNat * 2 ^ 16 + ps.toNat * 2 ^ 8 +
        sa.toNat := by
  have he := edp.isLt
  have hd := dp.isLt
  have hf := pf.isLt
  have hs := ps.isLt
  have ha := sa.isLt
  have h0 : (pack [(zext sa, 0)]).toNat = sa.toNat := by
    rw [pack_cons_toNat _ _ _ (by simp) (by rw [zext_toNat _ (by decide)]; omega), zext_toNat _ (by decide)]
    simp
  have h1 : (pack [(zext ps, 8), (zext sa, 0)]).toNat = ps.toNat * 2 ^ 8 + sa.toNat := by
    rw [pack_cons_toNat _ _ _ (by omega) (by rw [zext_toNat _ (by decide)]; omega), h0, zext_toNat _ (by decide)]
  have h2 : (pack [(zext pf, 16), (zext ps, 8), (zext sa, 0)]).toNat =
      pf.toNat * 2 ^ 16 + (ps.toNat * 2 ^ 8 + sa.toNat) := by
    rw [pack_cons_toNat _ _ _ (by omega) (by rw [zext_toNat _ (by decide)]; omega), h1, zext_toNat _ (by decide)]
  have h3 : (pack [(zext dp, 24), (zext pf, 16), (zext ps, 8), (zext sa, 0)]).toNat =
      dp.toNat * 2 ^ 24 + (pf.toNat * 2 ^ 16 + (ps.toNat * 2 ^ 8 + sa.toNat)) := by
    rw [pack_cons_toNat _ _ _ (by omega) (by rw [zext_toNat _ (by decide)]; omega), h2, zext_toNat _ (by decide)]
  have h4 : (pack [(zext edp, 25), (zext dp, 24), (zext pf, 16), (zext ps, 8), (zext sa, 0)]).toNat =
      edp.toNat * 2 ^ 25 + (dp.toNat * 2 ^ 24 + (pf.toNat * 2 ^ 16 + (ps.toNat * 2 ^ 8 + sa.toNat))) := by
    rw [pack_cons_toNat _ _ _ (by omega) (by rw [zext_toNat _ (by decide)]; omega), h3, zext_toNat _ (by decide)]
  rw [packExt, pack_cons_toNat _ _ _ (by omega) (by rw [zext_toNat _ (by decide)]; omega), h4,
    zext_toNat _ (by decide)]
  omega

end Sys2Proof.Machine
end

