-- ==== Sys2Proof/Laws/PerInstr.lean ====
section
/-! SUPPORT. Per-instruction statements: the encoded byte of a command lies in that command's row of the opcode table. -/

namespace Sys2Proof.Laws.TableRow

open Sys2Proof

/-- A command's byte has its row's pattern under its row's mask (spec/opcode_table.json). -/
def Statement (i : Instr) : Prop := rowMatches (rowOf i) (encode i) = true

theorem decStd (wsel : Nibble) : Statement (.decStd wsel) := by revert wsel; unfold Statement; decide
theorem encStd (wsel : Nibble) : Statement (.encStd wsel) := by revert wsel; unfold Statement; decide
theorem decExt (wsel : Nibble) : Statement (.decExt wsel) := by revert wsel; unfold Statement; decide
theorem encExt (wsel : Nibble) : Statement (.encExt wsel) := by revert wsel; unfold Statement; decide
theorem pgnBits (wsel : Nibble) : Statement (.pgnBits wsel) := by revert wsel; unfold Statement; decide
theorem pgnDa (wsel : Nibble) : Statement (.pgnDa wsel) := by revert wsel; unfold Statement; decide
theorem pgnGe (wsel : Nibble) : Statement (.pgnGe wsel) := by revert wsel; unfold Statement; decide
theorem pgnMkdst (wsel : Nibble) : Statement (.pgnMkdst wsel) := by revert wsel; unfold Statement; decide
theorem pgnMkbc (wsel : Nibble) : Statement (.pgnMkbc wsel) := by revert wsel; unfold Statement; decide
theorem sigDec4 : Statement .sigDec4 := by unfold Statement; decide
theorem sigDec8 : Statement .sigDec8 := by unfold Statement; decide
theorem sigDec10 : Statement .sigDec10 := by unfold Statement; decide
theorem sigDec12 : Statement .sigDec12 := by unfold Statement; decide
theorem sigDec16 : Statement .sigDec16 := by unfold Statement; decide
theorem sigDec20 : Statement .sigDec20 := by unfold Statement; decide
theorem sigDec24 : Statement .sigDec24 := by unfold Statement; decide
theorem sigDec28 : Statement .sigDec28 := by unfold Statement; decide
theorem sigDec32 : Statement .sigDec32 := by unfold Statement; decide
theorem sigEnc4 : Statement .sigEnc4 := by unfold Statement; decide
theorem sigEnc8 : Statement .sigEnc8 := by unfold Statement; decide
theorem sigEnc10 : Statement .sigEnc10 := by unfold Statement; decide
theorem sigEnc12 : Statement .sigEnc12 := by unfold Statement; decide
theorem sigEnc16 : Statement .sigEnc16 := by unfold Statement; decide
theorem sigEnc20 : Statement .sigEnc20 := by unfold Statement; decide
theorem sigEnc24 : Statement .sigEnc24 := by unfold Statement; decide
theorem sigEnc28 : Statement .sigEnc28 := by unfold Statement; decide
theorem sigEnc32 : Statement .sigEnc32 := by unfold Statement; decide

end Sys2Proof.Laws.TableRow
end

