-- ==== Sys2Proof/Laws/Step.lean ====
section
/-! SUPPORT. What one step can do, once. -/

namespace Sys2Proof.Machine

open Sys2Proof

/-- The result a request ends in (R146 items 2 and 3). -/
def requestResult (r : Request) : Result :=
  match decode r.cmd with
  | .ok i => resultOf i r.ports
  | .error _ => .illegalCmd

/-- A request completes on the state with its ports sampled. -/
theorem runRequest_eq (r : Request) (s : State) :
    runRequest r s = .next (complete (requestResult r) (samplePorts r.ports s)) := by
  unfold runRequest requestResult
  cases decode r.cmd with
  | ok i => simp [exec_eq_complete]
  | error e => simp [reservedCommand]

/-- Everything a step can do, by the host's next event. -/
theorem step_cases {s t : State} (h : step s = .next t) :
    (s.host = [] ∧ t = idle s) ∨
    (∃ r rest, s.host = .request r :: rest ∧ s.resetDone = true ∧
      t = complete (requestResult r) (samplePorts r.ports (takeEvent rest s))) ∨
    (∃ rest, s.host = .reset :: rest ∧ t = applyReset (takeEvent rest s)) ∨
    (∃ r rest, s.host = .requestThenReset r :: rest ∧ s.resetDone = true ∧ t = applyReset (takeEvent rest s)) ∨
    (∃ f c rest, s.host = .powerUp f c :: rest ∧ t = powerUp f c (takeEvent rest s)) := by
  unfold step at h
  split at h
  · rename_i hh
    exact .inl ⟨hh, (Host.Outcome.next.inj h).symm⟩
  · rename_i e rest hh
    cases e with
    | request r =>
      cases hd : s.resetDone with
      | true =>
        simp only [runEvent, takeEvent_resetDone, hd, if_true, runRequest_eq] at h
        exact .inr (.inl ⟨r, rest, hh, rfl, (Host.Outcome.next.inj h).symm⟩)
      | false => simp [runEvent, hd] at h
    | reset => exact .inr (.inr (.inl ⟨rest, hh, (Host.Outcome.next.inj h).symm⟩))
    | requestThenReset r =>
      cases hd : s.resetDone with
      | true =>
        simp only [runEvent, takeEvent_resetDone, hd, if_true] at h
        exact .inr (.inr (.inr (.inl ⟨r, rest, hh, rfl, (Host.Outcome.next.inj h).symm⟩)))
      | false => simp [runEvent, hd] at h
    | powerUp f c => exact .inr (.inr (.inr (.inr ⟨f, c, rest, hh, (Host.Outcome.next.inj h).symm⟩)))
    | unstableRequest => cases h

/-- A step whose next event is a request, on a block that has been reset. -/
theorem step_request {s : State} {r : Request} {rest : List HostEvent} (hd : s.resetDone = true)
    (hh : s.host = .request r :: rest) :
    step s = .next (complete (requestResult r) (samplePorts r.ports (takeEvent rest s))) := by
  simp [step, hh, runEvent, hd, runRequest_eq]

end Sys2Proof.Machine
end

