-- ==== Sys2Proof/Laws/Run.lean ====
section
/-! SUPPORT. Runs, one step at a time: the state after some steps and the responses they give. -/

namespace Sys2Proof

open Sys2Proof.Machine

@[simp] theorem runSteps_zero (s : State) : runSteps 0 s = .next s := rfl

theorem runSteps_succ {s t : State} (n : Nat) (h : step s = .next t) : runSteps (n + 1) s = runSteps n t := by
  have e : Host.Core.step Sys2Proof.core s = .next t := h
  simp only [runSteps, Host.Core.run, e]
  rfl

@[simp] theorem responses_zero (s : State) : responses 0 s = [] := rfl

theorem responses_succ {s t : State} (n : Nat) (h : step s = .next t) :
    responses (n + 1) s = t.rsp.toList ++ responses n t := by
  simp only [responses, h]

end Sys2Proof
end

