-- ==== Sys2Proof/Laws/Signal.lean ====
section
/-! SUPPORT. The signal classifier's tables and classes: what a well-formed configuration says of one width, and the
two inversions of the class codes. -/

namespace Sys2Proof.Machine

open Sys2Proof

theorem mem_allWidths (w : Width) : w ∈ allWidths := by cases w <;> decide

theorem mem_allSentinels (c : Sentinel) : c ∈ allSentinels := by cases c <;> decide

/-- The default configuration is well formed (R71, R75). -/
theorem chip_wf : configWf chip = true := by decide

/-- R71 of a well-formed configuration. -/
theorem cuts_ordered {cfg : Config} (h : configWf cfg = true) (w : Width) :
    (cfg.sigtab w).vHi < (cfg.sigtab w).iHi ∧ (cfg.sigtab w).iHi < (cfg.sigtab w).rHi ∧
    (cfg.sigtab w).rHi < (cfg.sigtab w).eHi ∧ (cfg.sigtab w).eHi < maxOf w := by
  simp only [configWf, Bool.and_eq_true, List.all_eq_true] at h
  have := h.1.1 w (mem_allWidths w)
  simpa [cutsWf, and_assoc] using this

/-- R75 of a well-formed configuration. -/
theorem canon_in_class {cfg : Config} (h : configWf cfg = true) (w : Width) (c : Sentinel) :
    (cfg.sigcanon w c).toNat ≤ maxOf w ∧ classOf (cfg.sigtab w) (cfg.sigcanon w c).toNat = .sentinel c := by
  simp only [configWf, Bool.and_eq_true, List.all_eq_true] at h
  have := h.1.2 w (mem_allWidths w) c (mem_allSentinels c)
  simpa [canonWf] using this

theorem classOf_eq_value {c : SigCuts} {r : Nat} : classOf c r = .value ↔ r ≤ c.vHi := by
  unfold classOf
  split
  · simp [*]
  · constructor
    · intro h
      split at h <;> (try split at h) <;> (try split at h) <;> cases h
    · intro h; contradiction

@[simp] theorem classOfCode_classCode (c : SigClass) : classOfCode (classCode c) = some c := by
  cases c with
  | value => rfl
  | sentinel s => cases s <;> rfl

theorem classCode_le (c : SigClass) : (classCode c).toNat ≤ 4 := by
  cases c with
  | value => decide
  | sentinel s => cases s <;> decide

/-- A class code either names a class, and is its code, or is reserved (R43, R55). -/
theorem classOfCode_cases (k : BitVec 3) :
    (∃ c, classOfCode k = some c ∧ classCode c = k) ∨ (classOfCode k = none ∧ 5 ≤ k.toNat) := by
  revert k
  have h : ∀ k : BitVec 3,
      (classOfCode k = some .value ∧ classCode .value = k) ∨
      (classOfCode k = some (.sentinel .indicator) ∧ classCode (.sentinel .indicator) = k) ∨
      (classOfCode k = some (.sentinel .reserved) ∧ classCode (.sentinel .reserved) = k) ∨
      (classOfCode k = some (.sentinel .error) ∧ classCode (.sentinel .error) = k) ∨
      (classOfCode k = some (.sentinel .notAvailable) ∧ classCode (.sentinel .notAvailable) = k) ∨
      (classOfCode k = none ∧ 5 ≤ k.toNat) := by decide
  intro k
  rcases h k with h | h | h | h | h | h
  · exact .inl ⟨_, h⟩
  · exact .inl ⟨_, h⟩
  · exact .inl ⟨_, h⟩
  · exact .inl ⟨_, h⟩
  · exact .inl ⟨_, h⟩
  · exact .inr h

theorem resultOf_sigDecOf (w : Width) (p : InPorts) : resultOf (sigDecOf w) p = sigDec chip w p := by
  cases w <;> rfl

theorem resultOf_sigEncOf (w : Width) (p : InPorts) : resultOf (sigEncOf w) p = sigEnc chip w p := by
  cases w <;> rfl

end Sys2Proof.Machine
end

