-- ==== Sys2Proof/Machine/Text.lean ====
section
/-! DEFINITION. The written form of a command and of a response (spec/30_encoding.md R57, R47). It has no effect on
behaviour (D8); nothing a step does uses it. -/

namespace Sys2Proof.Machine

open Sys2Proof

/-- A number in the spec's hexadecimal notation (R6). -/
def hexText (n : Nat) : String := "0x" ++ String.ofList ((Nat.toDigits 16 n).map Char.toUpper)

/-- `name=value`, comma separated (R57). -/
def portsText (l : List (String × Nat)) : String := ", ".intercalate (l.map fun p => p.1 ++ "=" ++ hexText p.2)

/-- The input ports a command reads, by name, with the values they hold (R47, column 'Reads'). -/
def writtenPorts (i : Instr) (p : InPorts) : List (String × Nat) :=
  match i with
  | .decStd _ | .decExt _ => [("i_raw", p.raw.toNat)]
  | .encStd _ => [("i_prio", p.prio.toNat), ("i_sa", p.sa.toNat)]
  | .encExt _ =>
    [("i_prio", p.prio.toNat), ("i_edp", p.edp.toNat), ("i_dp", p.dp.toNat), ("i_pf", p.pf.toNat),
      ("i_ps", p.ps.toNat), ("i_sa", p.sa.toNat)]
  | .pgnBits _ | .pgnMkdst _ | .pgnMkbc _ =>
    [("i_edp", p.edp.toNat), ("i_dp", p.dp.toNat), ("i_pf", p.pf.toNat), ("i_ps", p.ps.toNat)]
  | .pgnDa _ | .pgnGe _ => [("i_pf", p.pf.toNat), ("i_ps", p.ps.toNat)]
  | .sigDec4 | .sigDec8 | .sigDec10 | .sigDec12 | .sigDec16 | .sigDec20 | .sigDec24 | .sigDec28 | .sigDec32 =>
    [("i_raw", p.raw.toNat)]
  | .sigEnc4 | .sigEnc8 | .sigEnc10 | .sigEnc12 | .sigEnc16 | .sigEnc20 | .sigEnc24 | .sigEnc28 | .sigEnc32 =>
    ("i_class", p.cls.toNat) :: if p.cls = 0#3 then [("i_val", p.val.toNat)] else []

/-- The output ports a command drives on `OK`, by name, with their values (R47, column 'Drives on `OK`'). -/
def drivenPorts (i : Instr) (o : OutPorts) : List (String × Nat) :=
  match i with
  | .decStd _ => [("o_prio", o.prio.toNat), ("o_sa", o.sa.toNat)]
  | .decExt _ =>
    [("o_prio", o.prio.toNat), ("o_edp", o.edp.toNat), ("o_dp", o.dp.toNat), ("o_pf", o.pf.toNat),
      ("o_ps", o.ps.toNat), ("o_sa", o.sa.toNat), ("o_tag", o.tag.toNat)]
  | .encStd _ | .encExt _ | .pgnBits _ => [("o_raw", o.raw.toNat)]
  | .pgnDa _ | .pgnGe _ => [("o_some", o.some.toNat), ("o_byte", o.byte.toNat)]
  | .pgnMkdst _ | .pgnMkbc _ =>
    [("o_edp", o.edp.toNat), ("o_dp", o.dp.toNat), ("o_pf", o.pf.toNat), ("o_ps", o.ps.toNat),
      ("o_tag", o.tag.toNat)]
  | .sigDec4 | .sigDec8 | .sigDec10 | .sigDec12 | .sigDec16 | .sigDec20 | .sigDec24 | .sigDec28 | .sigDec32 =>
    [("o_class", o.cls.toNat), ("o_val", o.val.toNat)]
  | .sigEnc4 | .sigEnc8 | .sigEnc10 | .sigEnc12 | .sigEnc16 | .sigEnc20 | .sigEnc24 | .sigEnc28 | .sigEnc32 =>
    [("o_raw", o.raw.toNat)]

/-- The name of a status (R44). -/
def statusName : Status → String
  | .ok => "OK"
  | .rangeError => "RANGE_ERROR"
  | .contractViolation => "CONTRACT_VIOLATION"
  | .illegalCmd => "ILLEGAL_CMD"
  | .faulted => "FAULTED"

/-- A command as the spec writes it: its mnemonic, then the ports it reads (R57). -/
def commandText (i : Instr) (p : InPorts) : String := (rowOf i).mnemonic ++ " " ++ portsText (writtenPorts i p)

/-- A command in its encoded form: the command byte, then the same port values (R57). -/
def encodedText (i : Instr) (p : InPorts) : String :=
  "cmd=" ++ hexText (encode i).toNat ++ " " ++ portsText (writtenPorts i p)

/-- A response as the spec writes it: the status, and the driven ports when it is `OK` (R57). -/
def responseText (i : Instr) (r : Response) : String :=
  if r.status = .ok then "-> OK " ++ portsText (drivenPorts i r.out) else "-> " ++ statusName r.status

end Sys2Proof.Machine
end

