-- ==== Sys2Proof/Tests/Slice0.lean ====
section
/-! SUPPORT. Tests: words written out from the spec's encodings, one step per command against spec/95_test_vectors.md
(vector ids in the names or comments), ill-formed terms for every check, and a witness for the hypotheses of every
statement, clause by clause, at the values where clauses meet. -/

namespace Sys2Proof.Tests

open Sys2Proof Sys2Proof.Machine Sys2Proof.SpecSide

/-- Operand ports at 0. -/
def z : InPorts := ⟨0, 0, 0, 0, 0, 0, 0, 0, 0⟩

/-- A reset block whose host issues one command. -/
def asked (cmd : Byte) (p : InPorts) : State := { State.reset with host := [.request ⟨cmd, p⟩] }

/-- An unfaulted block with these operand ports sampled. -/
def calm (p : InPorts) : State := { State.reset with inPorts := p }

/-- A faulted block with these operand ports sampled. -/
def faulty (p : InPorts) : State := { State.reset with inPorts := p, fault := 1, fcause := 1 }

/-- The state a step gives. -/
def after (s : State) : Option State :=
  match step s with
  | .next t => some t
  | .fault _ => none
  | .refused _ => none

/-- The response of the next step. -/
def answerOf (s : State) : Option (Status × OutPorts) := (after s).bind fun t => t.rsp.map fun r => (r.status, r.out)

/-- The response to one command on a reset block. -/
def answer (cmd : Byte) (p : InPorts) : Option (Status × OutPorts) := answerOf (asked cmd p)

/-- The latch after one command on a reset block. -/
def latch (cmd : Byte) (p : InPorts) : Option (Bit × BitVec 2) := (after (asked cmd p)).map fun t => (t.fault, t.fcause)

/-! ### Decoding: every row's byte, written out from R41 and R42 -/

theorem test_decode_identifier_rows :
    decode 0b00010000#8 = .ok (.decStd 0) ∧ decode 0b00100000#8 = .ok (.encStd 0) ∧
    decode 0b00111111#8 = .ok (.decExt 15) ∧ decode 0b01000001#8 = .ok (.encExt 1) := by decide

theorem test_decode_pgn_rows :
    decode 0b01010000#8 = .ok (.pgnBits 0) ∧ decode 0b01100010#8 = .ok (.pgnDa 2) ∧
    decode 0b01110000#8 = .ok (.pgnGe 0) ∧ decode 0b10001000#8 = .ok (.pgnMkdst 8) ∧
    decode 0b10010000#8 = .ok (.pgnMkbc 0) := by decide

theorem test_decode_sigDec_rows :
    decode 0b10100000#8 = .ok .sigDec4 ∧
    decode 0b10100001#8 = .ok .sigDec8 ∧
    decode 0b10100010#8 = .ok .sigDec10 ∧
    decode 0b10100011#8 = .ok .sigDec12 ∧
    decode 0b10100100#8 = .ok .sigDec16 ∧
    decode 0b10100101#8 = .ok .sigDec20 ∧
    decode 0b10100110#8 = .ok .sigDec24 ∧
    decode 0b10100111#8 = .ok .sigDec28 ∧
    decode 0b10101000#8 = .ok .sigDec32 := by decide

theorem test_decode_sigEnc_rows :
    decode 0b10110000#8 = .ok .sigEnc4 ∧
    decode 0b10110001#8 = .ok .sigEnc8 ∧
    decode 0b10110010#8 = .ok .sigEnc10 ∧
    decode 0b10110011#8 = .ok .sigEnc12 ∧
    decode 0b10110100#8 = .ok .sigEnc16 ∧
    decode 0b10110101#8 = .ok .sigEnc20 ∧
    decode 0b10110110#8 = .ok .sigEnc24 ∧
    decode 0b10110111#8 = .ok .sigEnc28 ∧
    decode 0b10111000#8 = .ok .sigEnc32 := by decide

theorem test_decode_reserved :
    decode 0x00#8 = .error (.reservedOp 0) ∧ decode 0x0F#8 = .error (.reservedOp 0) ∧
    decode 0xFF#8 = .error (.reservedOp 15) ∧ decode 0xA9#8 = .error (.reservedWsel 10 9) ∧
    decode 0xBF#8 = .error (.reservedWsel 11 15) := by decide

/-- The word the host numbers from bit 0 of the one command byte. -/
theorem test_decodeTableWord : decodeTableWord 8 0xA3 = some .sigDec12 ∧ decodeTableWord 8 0xC0 = none := by decide

theorem test_withFetchWord_runs_next :
    answerOf (State.reset.withFetchWord 8 0xA0) = some (.ok, { noData with cls := 0 }) := by decide

/-! ### One step per command, from spec/95_test_vectors.md -/

/-- I1.1, source section 8 item 5. -/
theorem test_DEC_STD_I1_1 : answer 0x10 { z with raw := 0x6FE } = some (.ok, { noData with prio := 6, sa := 0xFE }) := by
  decide

/-- I3.3: bit 16, above the container. -/
theorem test_DEC_STD_I3_3 :
    answer 0x10 { z with raw := 0x106FE } = some (.contractViolation, noData) ∧
    latch 0x10 { z with raw := 0x106FE } = some (1, 1) := by decide

/-- I4.3. -/
theorem test_ENC_STD_I4_3 : answer 0x20 { z with prio := 7, sa := 0xFF } = some (.ok, { noData with raw := 0x7FF }) := by
  decide

/-- I4.5: not masked to priority 1. -/
theorem test_ENC_STD_I4_5 :
    answer 0x20 { z with prio := 9, sa := 0x12 } = some (.contractViolation, noData) ∧
    latch 0x20 { z with prio := 9, sa := 0x12 } = some (1, 1) := by decide

/-- I5.2: the source's encode example, decoded. -/
theorem test_DEC_EXT_I5_2 :
    answer 0x30 { z with raw := 0x18F122FE } =
      some (.ok, { noData with prio := 6, edp := 0, dp := 0, pf := 0xF1, ps := 0x22, sa := 0xFE, tag := 1 }) := by decide

/-- I5.5: format 239 is a Destination; I5.4 the page flags. -/
theorem test_DEC_EXT_I5_4_I5_5 :
    answer 0x30 { z with raw := 0xEF0000 } = some (.ok, { noData with pf := 0xEF, tag := 0 }) ∧
    answer 0x30 { z with raw := 0x3000000 } = some (.ok, { noData with edp := 1, dp := 1 }) := by decide

/-- I8.1, source section 8 item 5. -/
theorem test_ENC_EXT_I8_1 :
    answer 0x40 { z with prio := 6, pf := 0xF1, ps := 0x22, sa := 0xFE } = some (.ok, { noData with raw := 0x18F122FE }) := by
  decide

/-- I8.5 and I8.6: data page is bit 24, extended data page bit 25. -/
theorem test_ENC_EXT_I8_5_I8_6 :
    answer 0x40 { z with dp := 1 } = some (.ok, { noData with raw := 0x1000000 }) ∧
    answer 0x40 { z with edp := 1 } = some (.ok, { noData with raw := 0x2000000 }) := by decide

/-- P3.1 and P3.4. -/
theorem test_PGN_BITS_P3_1_P3_4 :
    answer 0x50 { z with pf := 0xF0, ps := 4 } = some (.ok, { noData with raw := 0xF004 }) ∧
    answer 0x50 { z with edp := 1 } = some (.ok, { noData with raw := 0x20000 }) := by decide

/-- P1.2 and P1.3. -/
theorem test_PGN_DA_P1_2_P1_3 :
    answer 0x60 { z with pf := 0xEF, ps := 0xFF } = some (.ok, { noData with some := 1, byte := 0xFF }) ∧
    answer 0x60 { z with pf := 0xF0, ps := 4 } = some (.ok, noData) := by decide

/-- P2.1 and P2.2. -/
theorem test_PGN_GE_P2_1_P2_2 :
    answer 0x70 { z with pf := 0xF0, ps := 4 } = some (.ok, { noData with some := 1, byte := 4 }) ∧
    answer 0x70 { z with pf := 0xEF, ps := 0xFF } = some (.ok, noData) := by decide

/-- P4.2 and P4.3. -/
theorem test_PGN_MKDST_P4_2_P4_3 :
    answer 0x80 { z with edp := 1, dp := 1, pf := 0xEF, ps := 0xFF } =
      some (.ok, { noData with edp := 1, dp := 1, pf := 0xEF, ps := 0xFF, tag := 0 }) ∧
    answer 0x80 { z with pf := 0xF0, ps := 4 } = some (.rangeError, noData) := by decide

/-- P5.2 and P5.3. -/
theorem test_PGN_MKBC_P5_2_P5_3 :
    answer 0x90 { z with dp := 1, pf := 0xFF, ps := 0xFF } =
      some (.ok, { noData with dp := 1, pf := 0xFF, ps := 0xFF, tag := 1 }) ∧
    answer 0x90 { z with pf := 0xEF, ps := 4 } = some (.rangeError, noData) := by decide

/-- S1, the row of W = 4: the last Value and every end point above it. -/
theorem test_SIG_DEC_4_S1 :
    answer 0xA0 { z with raw := 0xA } = some (.ok, { noData with cls := 0, val := 0xA }) ∧
    answer 0xA0 { z with raw := 0xB } = some (.ok, { noData with cls := 1, val := 0x0 }) ∧
    answer 0xA0 { z with raw := 0xC } = some (.ok, { noData with cls := 2, val := 0x0 }) ∧
    answer 0xA0 { z with raw := 0xD } = some (.ok, { noData with cls := 2, val := 0x0 }) ∧
    answer 0xA0 { z with raw := 0xE } = some (.ok, { noData with cls := 3, val := 0x0 }) ∧
    answer 0xA0 { z with raw := 0xF } = some (.ok, { noData with cls := 4, val := 0x0 }) := by decide

/-- S1, the row of W = 8: the last Value and every end point above it. -/
theorem test_SIG_DEC_8_S1 :
    answer 0xA1 { z with raw := 0xFA } = some (.ok, { noData with cls := 0, val := 0xFA }) ∧
    answer 0xA1 { z with raw := 0xFB } = some (.ok, { noData with cls := 1, val := 0x0 }) ∧
    answer 0xA1 { z with raw := 0xFC } = some (.ok, { noData with cls := 2, val := 0x0 }) ∧
    answer 0xA1 { z with raw := 0xFD } = some (.ok, { noData with cls := 2, val := 0x0 }) ∧
    answer 0xA1 { z with raw := 0xFE } = some (.ok, { noData with cls := 3, val := 0x0 }) ∧
    answer 0xA1 { z with raw := 0xFF } = some (.ok, { noData with cls := 4, val := 0x0 }) := by decide

/-- S1, the row of W = 10: the last Value and every end point above it. -/
theorem test_SIG_DEC_10_S1 :
    answer 0xA2 { z with raw := 0x3FA } = some (.ok, { noData with cls := 0, val := 0x3FA }) ∧
    answer 0xA2 { z with raw := 0x3FB } = some (.ok, { noData with cls := 1, val := 0x0 }) ∧
    answer 0xA2 { z with raw := 0x3FC } = some (.ok, { noData with cls := 2, val := 0x0 }) ∧
    answer 0xA2 { z with raw := 0x3FD } = some (.ok, { noData with cls := 2, val := 0x0 }) ∧
    answer 0xA2 { z with raw := 0x3FE } = some (.ok, { noData with cls := 3, val := 0x0 }) ∧
    answer 0xA2 { z with raw := 0x3FF } = some (.ok, { noData with cls := 4, val := 0x0 }) := by decide

/-- S1, the row of W = 12: the last Value and every end point above it. -/
theorem test_SIG_DEC_12_S1 :
    answer 0xA3 { z with raw := 0xFAF } = some (.ok, { noData with cls := 0, val := 0xFAF }) ∧
    answer 0xA3 { z with raw := 0xFB0 } = some (.ok, { noData with cls := 1, val := 0x0 }) ∧
    answer 0xA3 { z with raw := 0xFBF } = some (.ok, { noData with cls := 1, val := 0x0 }) ∧
    answer 0xA3 { z with raw := 0xFC0 } = some (.ok, { noData with cls := 2, val := 0x0 }) ∧
    answer 0xA3 { z with raw := 0xFDF } = some (.ok, { noData with cls := 2, val := 0x0 }) ∧
    answer 0xA3 { z with raw := 0xFE0 } = some (.ok, { noData with cls := 3, val := 0x0 }) ∧
    answer 0xA3 { z with raw := 0xFEF } = some (.ok, { noData with cls := 3, val := 0x0 }) ∧
    answer 0xA3 { z with raw := 0xFF0 } = some (.ok, { noData with cls := 4, val := 0x0 }) ∧
    answer 0xA3 { z with raw := 0xFFF } = some (.ok, { noData with cls := 4, val := 0x0 }) := by decide

/-- S1, the row of W = 16: the last Value and every end point above it. -/
theorem test_SIG_DEC_16_S1 :
    answer 0xA4 { z with raw := 0xFAFF } = some (.ok, { noData with cls := 0, val := 0xFAFF }) ∧
    answer 0xA4 { z with raw := 0xFB00 } = some (.ok, { noData with cls := 1, val := 0x0 }) ∧
    answer 0xA4 { z with raw := 0xFBFF } = some (.ok, { noData with cls := 1, val := 0x0 }) ∧
    answer 0xA4 { z with raw := 0xFC00 } = some (.ok, { noData with cls := 2, val := 0x0 }) ∧
    answer 0xA4 { z with raw := 0xFDFF } = some (.ok, { noData with cls := 2, val := 0x0 }) ∧
    answer 0xA4 { z with raw := 0xFE00 } = some (.ok, { noData with cls := 3, val := 0x0 }) ∧
    answer 0xA4 { z with raw := 0xFEFF } = some (.ok, { noData with cls := 3, val := 0x0 }) ∧
    answer 0xA4 { z with raw := 0xFF00 } = some (.ok, { noData with cls := 4, val := 0x0 }) ∧
    answer 0xA4 { z with raw := 0xFFFF } = some (.ok, { noData with cls := 4, val := 0x0 }) := by decide

/-- S1, the row of W = 20: the last Value and every end point above it. -/
theorem test_SIG_DEC_20_S1 :
    answer 0xA5 { z with raw := 0xFAFFF } = some (.ok, { noData with cls := 0, val := 0xFAFFF }) ∧
    answer 0xA5 { z with raw := 0xFB000 } = some (.ok, { noData with cls := 1, val := 0x0 }) ∧
    answer 0xA5 { z with raw := 0xFBFFF } = some (.ok, { noData with cls := 1, val := 0x0 }) ∧
    answer 0xA5 { z with raw := 0xFC000 } = some (.ok, { noData with cls := 2, val := 0x0 }) ∧
    answer 0xA5 { z with raw := 0xFDFFF } = some (.ok, { noData with cls := 2, val := 0x0 }) ∧
    answer 0xA5 { z with raw := 0xFE000 } = some (.ok, { noData with cls := 3, val := 0x0 }) ∧
    answer 0xA5 { z with raw := 0xFEFFF } = some (.ok, { noData with cls := 3, val := 0x0 }) ∧
    answer 0xA5 { z with raw := 0xFF000 } = some (.ok, { noData with cls := 4, val := 0x0 }) ∧
    answer 0xA5 { z with raw := 0xFFFFF } = some (.ok, { noData with cls := 4, val := 0x0 }) := by decide

/-- S1, the row of W = 24: the last Value and every end point above it. -/
theorem test_SIG_DEC_24_S1 :
    answer 0xA6 { z with raw := 0xFAFFFF } = some (.ok, { noData with cls := 0, val := 0xFAFFFF }) ∧
    answer 0xA6 { z with raw := 0xFB0000 } = some (.ok, { noData with cls := 1, val := 0x0 }) ∧
    answer 0xA6 { z with raw := 0xFBFFFF } = some (.ok, { noData with cls := 1, val := 0x0 }) ∧
    answer 0xA6 { z with raw := 0xFC0000 } = some (.ok, { noData with cls := 2, val := 0x0 }) ∧
    answer 0xA6 { z with raw := 0xFDFFFF } = some (.ok, { noData with cls := 2, val := 0x0 }) ∧
    answer 0xA6 { z with raw := 0xFE0000 } = some (.ok, { noData with cls := 3, val := 0x0 }) ∧
    answer 0xA6 { z with raw := 0xFEFFFF } = some (.ok, { noData with cls := 3, val := 0x0 }) ∧
    answer 0xA6 { z with raw := 0xFF0000 } = some (.ok, { noData with cls := 4, val := 0x0 }) ∧
    answer 0xA6 { z with raw := 0xFFFFFF } = some (.ok, { noData with cls := 4, val := 0x0 }) := by decide

/-- S1, the row of W = 28: the last Value and every end point above it. -/
theorem test_SIG_DEC_28_S1 :
    answer 0xA7 { z with raw := 0xFAFFFFF } = some (.ok, { noData with cls := 0, val := 0xFAFFFFF }) ∧
    answer 0xA7 { z with raw := 0xFB00000 } = some (.ok, { noData with cls := 1, val := 0x0 }) ∧
    answer 0xA7 { z with raw := 0xFBFFFFF } = some (.ok, { noData with cls := 1, val := 0x0 }) ∧
    answer 0xA7 { z with raw := 0xFC00000 } = some (.ok, { noData with cls := 2, val := 0x0 }) ∧
    answer 0xA7 { z with raw := 0xFDFFFFF } = some (.ok, { noData with cls := 2, val := 0x0 }) ∧
    answer 0xA7 { z with raw := 0xFE00000 } = some (.ok, { noData with cls := 3, val := 0x0 }) ∧
    answer 0xA7 { z with raw := 0xFEFFFFF } = some (.ok, { noData with cls := 3, val := 0x0 }) ∧
    answer 0xA7 { z with raw := 0xFF00000 } = some (.ok, { noData with cls := 4, val := 0x0 }) ∧
    answer 0xA7 { z with raw := 0xFFFFFFF } = some (.ok, { noData with cls := 4, val := 0x0 }) := by decide

/-- S1, the row of W = 32: the last Value and every end point above it. -/
theorem test_SIG_DEC_32_S1 :
    answer 0xA8 { z with raw := 0xFAFFFFFF } = some (.ok, { noData with cls := 0, val := 0xFAFFFFFF }) ∧
    answer 0xA8 { z with raw := 0xFB000000 } = some (.ok, { noData with cls := 1, val := 0x0 }) ∧
    answer 0xA8 { z with raw := 0xFBFFFFFF } = some (.ok, { noData with cls := 1, val := 0x0 }) ∧
    answer 0xA8 { z with raw := 0xFC000000 } = some (.ok, { noData with cls := 2, val := 0x0 }) ∧
    answer 0xA8 { z with raw := 0xFDFFFFFF } = some (.ok, { noData with cls := 2, val := 0x0 }) ∧
    answer 0xA8 { z with raw := 0xFE000000 } = some (.ok, { noData with cls := 3, val := 0x0 }) ∧
    answer 0xA8 { z with raw := 0xFEFFFFFF } = some (.ok, { noData with cls := 3, val := 0x0 }) ∧
    answer 0xA8 { z with raw := 0xFF000000 } = some (.ok, { noData with cls := 4, val := 0x0 }) ∧
    answer 0xA8 { z with raw := 0xFFFFFFFF } = some (.ok, { noData with cls := 4, val := 0x0 }) := by decide

/-- S5: `i_raw` is MAX + 1. -/
theorem test_SIG_DEC_4_S5 : answer 0xA0 { z with raw := 0x10 } = some (.rangeError, noData) := by decide

/-- S5: `i_raw` is MAX + 1. -/
theorem test_SIG_DEC_8_S5 : answer 0xA1 { z with raw := 0x100 } = some (.rangeError, noData) := by decide

/-- S5: `i_raw` is MAX + 1. -/
theorem test_SIG_DEC_10_S5 : answer 0xA2 { z with raw := 0x400 } = some (.rangeError, noData) := by decide

/-- S5: `i_raw` is MAX + 1. -/
theorem test_SIG_DEC_12_S5 : answer 0xA3 { z with raw := 0x1000 } = some (.rangeError, noData) := by decide

/-- S5: `i_raw` is MAX + 1. -/
theorem test_SIG_DEC_16_S5 : answer 0xA4 { z with raw := 0x10000 } = some (.rangeError, noData) := by decide

/-- S5: `i_raw` is MAX + 1. -/
theorem test_SIG_DEC_20_S5 : answer 0xA5 { z with raw := 0x100000 } = some (.rangeError, noData) := by decide

/-- S5: `i_raw` is MAX + 1. -/
theorem test_SIG_DEC_24_S5 : answer 0xA6 { z with raw := 0x1000000 } = some (.rangeError, noData) := by decide

/-- S5: `i_raw` is MAX + 1. -/
theorem test_SIG_DEC_28_S5 : answer 0xA7 { z with raw := 0x10000000 } = some (.rangeError, noData) := by decide

/-- R75, the row of W = 4; `i_val` is not read. -/
theorem test_SIG_ENC_4_constants :
    answer 0xB0 { z with cls := 1, val := 0xDEADBEEF } = some (.ok, { noData with raw := 0xB }) ∧
    answer 0xB0 { z with cls := 2, val := 0xDEADBEEF } = some (.ok, { noData with raw := 0xD }) ∧
    answer 0xB0 { z with cls := 3, val := 0xDEADBEEF } = some (.ok, { noData with raw := 0xE }) ∧
    answer 0xB0 { z with cls := 4, val := 0xDEADBEEF } = some (.ok, { noData with raw := 0xF }) := by decide

/-- R76, R77: the largest Value is built, the next one violates the contract with cause 2. -/
theorem test_SIG_ENC_4_values :
    answer 0xB0 { z with cls := 0, val := 0xA } = some (.ok, { noData with raw := 0xA }) ∧
    answer 0xB0 { z with cls := 0, val := 0xB } = some (.contractViolation, noData) ∧
    latch 0xB0 { z with cls := 0, val := 0xB } = some (1, 2) := by decide

/-- R75, the row of W = 8; `i_val` is not read. -/
theorem test_SIG_ENC_8_constants :
    answer 0xB1 { z with cls := 1, val := 0xDEADBEEF } = some (.ok, { noData with raw := 0xFB }) ∧
    answer 0xB1 { z with cls := 2, val := 0xDEADBEEF } = some (.ok, { noData with raw := 0xFD }) ∧
    answer 0xB1 { z with cls := 3, val := 0xDEADBEEF } = some (.ok, { noData with raw := 0xFE }) ∧
    answer 0xB1 { z with cls := 4, val := 0xDEADBEEF } = some (.ok, { noData with raw := 0xFF }) := by decide

/-- R76, R77: the largest Value is built, the next one violates the contract with cause 2. -/
theorem test_SIG_ENC_8_values :
    answer 0xB1 { z with cls := 0, val := 0xFA } = some (.ok, { noData with raw := 0xFA }) ∧
    answer 0xB1 { z with cls := 0, val := 0xFB } = some (.contractViolation, noData) ∧
    latch 0xB1 { z with cls := 0, val := 0xFB } = some (1, 2) := by decide

/-- R75, the row of W = 10; `i_val` is not read. -/
theorem test_SIG_ENC_10_constants :
    answer 0xB2 { z with cls := 1, val := 0xDEADBEEF } = some (.ok, { noData with raw := 0x3FB }) ∧
    answer 0xB2 { z with cls := 2, val := 0xDEADBEEF } = some (.ok, { noData with raw := 0x3FD }) ∧
    answer 0xB2 { z with cls := 3, val := 0xDEADBEEF } = some (.ok, { noData with raw := 0x3FE }) ∧
    answer 0xB2 { z with cls := 4, val := 0xDEADBEEF } = some (.ok, { noData with raw := 0x3FF }) := by decide

/-- R76, R77: the largest Value is built, the next one violates the contract with cause 2. -/
theorem test_SIG_ENC_10_values :
    answer 0xB2 { z with cls := 0, val := 0x3FA } = some (.ok, { noData with raw := 0x3FA }) ∧
    answer 0xB2 { z with cls := 0, val := 0x3FB } = some (.contractViolation, noData) ∧
    latch 0xB2 { z with cls := 0, val := 0x3FB } = some (1, 2) := by decide

/-- R75, the row of W = 12; `i_val` is not read. -/
theorem test_SIG_ENC_12_constants :
    answer 0xB3 { z with cls := 1, val := 0xDEADBEEF } = some (.ok, { noData with raw := 0xFBF }) ∧
    answer 0xB3 { z with cls := 2, val := 0xDEADBEEF } = some (.ok, { noData with raw := 0xFDF }) ∧
    answer 0xB3 { z with cls := 3, val := 0xDEADBEEF } = some (.ok, { noData with raw := 0xFEF }) ∧
    answer 0xB3 { z with cls := 4, val := 0xDEADBEEF } = some (.ok, { noData with raw := 0xFFF }) := by decide

/-- R76, R77: the largest Value is built, the next one violates the contract with cause 2. -/
theorem test_SIG_ENC_12_values :
    answer 0xB3 { z with cls := 0, val := 0xFAF } = some (.ok, { noData with raw := 0xFAF }) ∧
    answer 0xB3 { z with cls := 0, val := 0xFB0 } = some (.contractViolation, noData) ∧
    latch 0xB3 { z with cls := 0, val := 0xFB0 } = some (1, 2) := by decide

/-- R75, the row of W = 16; `i_val` is not read. -/
theorem test_SIG_ENC_16_constants :
    answer 0xB4 { z with cls := 1, val := 0xDEADBEEF } = some (.ok, { noData with raw := 0xFBFF }) ∧
    answer 0xB4 { z with cls := 2, val := 0xDEADBEEF } = some (.ok, { noData with raw := 0xFDFF }) ∧
    answer 0xB4 { z with cls := 3, val := 0xDEADBEEF } = some (.ok, { noData with raw := 0xFEFF }) ∧
    answer 0xB4 { z with cls := 4, val := 0xDEADBEEF } = some (.ok, { noData with raw := 0xFFFF }) := by decide

/-- R76, R77: the largest Value is built, the next one violates the contract with cause 2. -/
theorem test_SIG_ENC_16_values :
    answer 0xB4 { z with cls := 0, val := 0xFAFF } = some (.ok, { noData with raw := 0xFAFF }) ∧
    answer 0xB4 { z with cls := 0, val := 0xFB00 } = some (.contractViolation, noData) ∧
    latch 0xB4 { z with cls := 0, val := 0xFB00 } = some (1, 2) := by decide

/-- R75, the row of W = 20; `i_val` is not read. -/
theorem test_SIG_ENC_20_constants :
    answer 0xB5 { z with cls := 1, val := 0xDEADBEEF } = some (.ok, { noData with raw := 0xFBFFF }) ∧
    answer 0xB5 { z with cls := 2, val := 0xDEADBEEF } = some (.ok, { noData with raw := 0xFDFFF }) ∧
    answer 0xB5 { z with cls := 3, val := 0xDEADBEEF } = some (.ok, { noData with raw := 0xFEFFF }) ∧
    answer 0xB5 { z with cls := 4, val := 0xDEADBEEF } = some (.ok, { noData with raw := 0xFFFFF }) := by decide

/-- R76, R77: the largest Value is built, the next one violates the contract with cause 2. -/
theorem test_SIG_ENC_20_values :
    answer 0xB5 { z with cls := 0, val := 0xFAFFF } = some (.ok, { noData with raw := 0xFAFFF }) ∧
    answer 0xB5 { z with cls := 0, val := 0xFB000 } = some (.contractViolation, noData) ∧
    latch 0xB5 { z with cls := 0, val := 0xFB000 } = some (1, 2) := by decide

/-- R75, the row of W = 24; `i_val` is not read. -/
theorem test_SIG_ENC_24_constants :
    answer 0xB6 { z with cls := 1, val := 0xDEADBEEF } = some (.ok, { noData with raw := 0xFBFFFF }) ∧
    answer 0xB6 { z with cls := 2, val := 0xDEADBEEF } = some (.ok, { noData with raw := 0xFDFFFF }) ∧
    answer 0xB6 { z with cls := 3, val := 0xDEADBEEF } = some (.ok, { noData with raw := 0xFEFFFF }) ∧
    answer 0xB6 { z with cls := 4, val := 0xDEADBEEF } = some (.ok, { noData with raw := 0xFFFFFF }) := by decide

/-- R76, R77: the largest Value is built, the next one violates the contract with cause 2. -/
theorem test_SIG_ENC_24_values :
    answer 0xB6 { z with cls := 0, val := 0xFAFFFF } = some (.ok, { noData with raw := 0xFAFFFF }) ∧
    answer 0xB6 { z with cls := 0, val := 0xFB0000 } = some (.contractViolation, noData) ∧
    latch 0xB6 { z with cls := 0, val := 0xFB0000 } = some (1, 2) := by decide

/-- R75, the row of W = 28; `i_val` is not read. -/
theorem test_SIG_ENC_28_constants :
    answer 0xB7 { z with cls := 1, val := 0xDEADBEEF } = some (.ok, { noData with raw := 0xFBFFFFF }) ∧
    answer 0xB7 { z with cls := 2, val := 0xDEADBEEF } = some (.ok, { noData with raw := 0xFDFFFFF }) ∧
    answer 0xB7 { z with cls := 3, val := 0xDEADBEEF } = some (.ok, { noData with raw := 0xFEFFFFF }) ∧
    answer 0xB7 { z with cls := 4, val := 0xDEADBEEF } = some (.ok, { noData with raw := 0xFFFFFFF }) := by decide

/-- R76, R77: the largest Value is built, the next one violates the contract with cause 2. -/
theorem test_SIG_ENC_28_values :
    answer 0xB7 { z with cls := 0, val := 0xFAFFFFF } = some (.ok, { noData with raw := 0xFAFFFFF }) ∧
    answer 0xB7 { z with cls := 0, val := 0xFB00000 } = some (.contractViolation, noData) ∧
    latch 0xB7 { z with cls := 0, val := 0xFB00000 } = some (1, 2) := by decide

/-- R75, the row of W = 32; `i_val` is not read. -/
theorem test_SIG_ENC_32_constants :
    answer 0xB8 { z with cls := 1, val := 0xDEADBEEF } = some (.ok, { noData with raw := 0xFBFFFFFF }) ∧
    answer 0xB8 { z with cls := 2, val := 0xDEADBEEF } = some (.ok, { noData with raw := 0xFDFFFFFF }) ∧
    answer 0xB8 { z with cls := 3, val := 0xDEADBEEF } = some (.ok, { noData with raw := 0xFEFFFFFF }) ∧
    answer 0xB8 { z with cls := 4, val := 0xDEADBEEF } = some (.ok, { noData with raw := 0xFFFFFFFF }) := by decide

/-- R76, R77: the largest Value is built, the next one violates the contract with cause 2. -/
theorem test_SIG_ENC_32_values :
    answer 0xB8 { z with cls := 0, val := 0xFAFFFFFF } = some (.ok, { noData with raw := 0xFAFFFFFF }) ∧
    answer 0xB8 { z with cls := 0, val := 0xFB000000 } = some (.contractViolation, noData) ∧
    latch 0xB8 { z with cls := 0, val := 0xFB000000 } = some (1, 2) := by decide

/-! ### The latch, reserved codes, reset -/

/-- X1.2: a reserved byte on a faulted block is `FAULTED`, not `ILLEGAL_CMD`; X1.3: the first cause stays. -/
theorem test_faulted_X1_2_X1_3 :
    answerOf { asked 0x00 z with fault := 1, fcause := 1 } = some (.faulted, noData) ∧
    (after { asked 0xB1 { z with val := 0xFF } with fault := 1, fcause := 2 }).map (fun t => (t.fault, t.fcause)) =
      some (1, 2) := by decide

/-- X2.4 and S8.5: a reserved class code is found before the Value range. -/
theorem test_illegal_X2_4_S8_5 :
    answer 0xD7 z = some (.illegalCmd, noData) ∧ latch 0xD7 z = some (0, 0) ∧
    answer 0xB1 { z with cls := 7, val := 0xFFFF } = some (.illegalCmd, noData) := by decide

/-- X3.2 and X3.5. -/
theorem test_reset_X3_2_X3_5 :
    (after { faulty z with host := [.reset] }).map (fun t => (t.fault, t.fcause)) = some (0, 0) ∧
    (after { State.reset with host := [.requestThenReset ⟨0x20, { z with prio := 8 }⟩] }).map
      (fun t => (t.fault, t.fcause, t.rsp)) = some (0, 0, none) := by decide

/-- R14, R15: the ports a host reads. -/
theorem test_status_ports :
    (after (asked 0x20 { z with prio := 8 })).map (fun t => (oFault t, oFcause t, oStatus t, rspValid t)) =
      some (1, 1, some 2, true) ∧ oStatus State.reset = none := by decide

/-- R44, R45, R43, R46: the code tables. -/
theorem test_codes :
    statusCode .ok = 0 ∧ statusCode .rangeError = 1 ∧ statusCode .contractViolation = 2 ∧ statusCode .illegalCmd = 3 ∧
    statusCode .faulted = 4 ∧ causeCode .priority = 1 ∧ causeCode .valueRange = 2 ∧
    classOfCode 4 = some (.sentinel .notAvailable) ∧ classOfCode 5 = none ∧ pgnTag 0xEF = 0 ∧ pgnTag 0xF0 = 1 := by decide

/-! ### Well-formedness: an ill-formed term for each check -/

/-- R71's order, each of its four signs broken once. -/
theorem test_cutsWf_refuses :
    cutsWf .w8 ⟨251, 251, 253, 254⟩ = false ∧ cutsWf .w8 ⟨250, 253, 253, 254⟩ = false ∧
    cutsWf .w8 ⟨250, 251, 254, 254⟩ = false ∧ cutsWf .w8 ⟨250, 251, 253, 255⟩ = false ∧
    cutsWf .w8 ⟨250, 251, 253, 254⟩ = true := by decide

/-- The default tables with one constant replaced. -/
def withCanon (w : Width) (c : Sentinel) (x : Word) : Config :=
  { chip with sigcanon := fun v d => if v = w ∧ d = c then x else chip.sigcanon v d }

/-- The default tables with one row of cut points replaced. -/
def withCuts (w : Width) (c : SigCuts) : Config :=
  { chip with sigtab := fun v => if v = w then c else chip.sigtab v }

/-- R75: a constant above `MAX(W)`, and one of another class. -/
theorem test_canonWf_refuses :
    canonWf (withCanon .w8 .notAvailable 0x1FF) .w8 .notAvailable = false ∧
    canonWf (withCanon .w8 .reserved 0xFE) .w8 .reserved = false ∧ canonWf chip .w8 .reserved = true := by decide

/-- What the source fixes: the rows of 4, 8 and 10 bits, the point 0xFB5, and NotAvailable = MAX. -/
theorem test_sourceFixed_refuses :
    sourceFixed (withCuts .w4 ⟨9, 11, 13, 14⟩) = false ∧ sourceFixed (withCuts .w8 ⟨249, 251, 253, 254⟩) = false ∧
    sourceFixed (withCuts .w10 ⟨1017, 1019, 1021, 1022⟩) = false ∧
    sourceFixed (withCuts .w12 ⟨4090, 4091, 4093, 4094⟩) = false ∧
    sourceFixed (withCanon .w16 .notAvailable 0xFF00) = false := by decide

theorem test_configWf :
    configWf chip = true ∧ configWf (withCuts .w16 ⟨1, 1, 2, 3⟩) = false ∧
    configWf (withCanon .w8 .reserved 0xFE) = false ∧ configWf (withCanon .w16 .notAvailable 0xFF00) = false := by decide

/-- Every constructor is well formed with every value of its field: the check on commands refuses none. -/
theorem test_instrWf : instrWf (.decStd 15) = true ∧ instrWf .sigEnc32 = true := by decide

/-! ### Witnesses: states and operands that meet the hypotheses of each statement -/

/-- DecodeOfEncodeIsTheInstr, EncodeOfDecodeIsTheByte, EachByteLiesInAtMostOneRow, StepRunsTheDecodedCommand. -/
theorem witness_decoding :
    instrWf (.decStd 15) = true ∧ decode 0x1F#8 = .ok (.decStd 15) ∧ rowMatches (rowOf (.decStd 15)) 0x1F = true ∧
    presents (asked 0x1F z) ⟨0x1F, z⟩ [] := by decide

/-- ReservedCodesAreIllegalCommands, and the `answersIllegal` clauses of the signal statements and of the port table. -/
theorem witness_reserved :
    (∃ e, decode 0xC0#8 = .error e) ∧ presents (asked 0xC0 z) ⟨0xC0, z⟩ [] ∧ (asked 0xC0 z).fault = 0#1 ∧
    (calm { z with cls := 5 }).fault = 0#1 ∧ 5 ≤ (calm { z with cls := 5 }).inPorts.cls.toNat ∧
    9 ≤ (9#4 : Nibble).toNat ∧ presents (asked 0xA9 z) ⟨0xA9, z⟩ [] :=
  ⟨⟨_, rfl⟩, by decide, by decide, by decide, by decide, by decide, by decide⟩

/-- WselIgnoredByOtherOperations, at both ends of its range of operations. -/
theorem witness_wsel_ignored :
    (presents (asked 0x10 z) ⟨0x10, z⟩ [] ∧ 1 ≤ (0x10#8).toNat / 16 ∧ (0x1F#8).toNat / 16 = (0x10#8).toNat / 16) ∧
    (presents (asked 0x9F z) ⟨0x9F, z⟩ [] ∧ (0x9F#8).toNat / 16 ≤ 9 ∧ (0x90#8).toNat / 16 = (0x9F#8).toNat / 16) := by
  decide

/-- `answersFaulted`, in every statement that has it, and the first clause of FaultedBlockAnswersFaulted. -/
theorem witness_faulted : (faulty z).fault = 1#1 := by decide

/-- DecStdSplitsAnElevenBitIdentifier: the two clauses meet between 0x7FF and 0x800. -/
theorem witness_decStd :
    ((calm { z with raw := 0x7FF }).fault = 0#1 ∧ (calm { z with raw := 0x7FF }).inPorts.raw.toNat ≤ 0x7FF) ∧
    ((calm { z with raw := 0x800 }).fault = 0#1 ∧ 0x7FF < (calm { z with raw := 0x800 }).inPorts.raw.toNat) := by decide

/-- DecExtSplitsATwentyNineBitIdentifier: the two clauses meet between 0x1FFFFFFF and 0x20000000. -/
theorem witness_decExt :
    ((calm { z with raw := 0x1FFFFFFF }).fault = 0#1 ∧
      (calm { z with raw := 0x1FFFFFFF }).inPorts.raw.toNat ≤ 0x1FFFFFFF) ∧
    ((calm { z with raw := 0x20000000 }).fault = 0#1 ∧
      0x1FFFFFFF < (calm { z with raw := 0x20000000 }).inPorts.raw.toNat) := by decide

/-- EncStdJoinsAnElevenBitIdentifier, EncExtJoinsATwentyNineBitIdentifier, PriorityAssertionFailsExactlyAboveSeven:
the clauses meet between 7 and 8. -/
theorem witness_priority :
    ((calm { z with prio := 7 }).fault = 0#1 ∧ (calm { z with prio := 7 }).inPorts.prio.toNat < 8) ∧
    ((calm { z with prio := 8 }).fault = 0#1 ∧ 8 ≤ (calm { z with prio := 8 }).inPorts.prio.toNat) := by decide

/-- StandardIdentifierRoundTrips: the inner hypotheses of both clauses, for 0x7FF. -/
theorem witness_standard_round_trip :
    (calm { z with prio := 7, sa := 0xFF }).fault = 0#1 ∧
    (calm { z with prio := 7, sa := 0xFF }).inPorts.prio = (7#3 : BitVec 3).setWidth 8 ∧
    (calm { z with prio := 7, sa := 0xFF }).inPorts.sa = 0xFF#8 ∧
    exec (.decStd 0) (calm { z with raw := 0x7FF }) =
      .next (answered .ok { noData with prio := 7#3, sa := 0xFF#8 } (calm { z with raw := 0x7FF })) ∧
    (calm { z with raw := 0x7FF }).inPorts.raw = 0x7FF#32 :=
  ⟨by decide, by decide, by decide, rfl, by decide⟩

/-- ExtendedIdentifierRoundTrips: the inner hypotheses of both clauses, for I5.1. -/
theorem witness_extended_round_trip :
    exec (.decExt 0) (calm { z with raw := 0x0CF004FE }) =
      .next (answered .ok
        { noData with prio := 3#3, edp := 0#1, dp := 0#1, pf := 0xF0#8, ps := 4#8, sa := 0xFE#8, tag := 1#1 }
        (calm { z with raw := 0x0CF004FE })) ∧
    (calm { z with prio := 3, pf := 0xF0, ps := 4, sa := 0xFE }).inPorts.prio = (3#3 : BitVec 3).setWidth 8 ∧
    (calm { z with raw := 0x0CF004FE }).inPorts.raw.toNat ≤ 0x1FFFFFFF :=
  ⟨rfl, by decide, by decide⟩

/-- PgnSitsInsideTheIdentifier, for P3.1 against I5.1. -/
theorem witness_pgn_inside :
    (calm { z with raw := 0x0CF004FE }).fault = 0#1 ∧ (calm { z with pf := 0xF0, ps := 4 }).fault = 0#1 ∧
    (calm { z with raw := 0x0CF004FE }).inPorts.raw.toNat ≤ 0x1FFFFFFF ∧
    (calm { z with pf := 0xF0, ps := 4 }).inPorts.edp = (extFields 0x0CF004FE).edp ∧
    (calm { z with pf := 0xF0, ps := 4 }).inPorts.dp = (extFields 0x0CF004FE).dp ∧
    (calm { z with pf := 0xF0, ps := 4 }).inPorts.pf = (extFields 0x0CF004FE).pf ∧
    (calm { z with pf := 0xF0, ps := 4 }).inPorts.ps = (extFields 0x0CF004FE).ps := by decide

/-- ShiftedPgnNumberComesApartInDecExt, both parts. -/
theorem witness_shifted_pgn :
    (calm { z with raw := 0xF00400 }).inPorts.raw =
      BitVec.ofNat 32 (pgnNat (calm { z with pf := 0xF0, ps := 4 }).inPorts * 2 ^ 8) ∧
    (calm { z with raw := 0x7FF }).fault = 0#1 ∧ (calm { z with raw := 0x7FF }).inPorts.raw.toNat < 0x800 := by decide

/-- PgnBitsPacksEighteenBits: two states with the same response, and the largest number. -/
theorem witness_pgnBits :
    (∃ t u, exec (.pgnBits 0) (calm { z with ps := 4 }) = .next t ∧
      exec (.pgnBits 0) (calm { z with ps := 4, sa := 1 }) = .next u ∧ t.rsp = u.rsp) ∧ (0x3FFFF : Nat) ≤ 0x3FFFF ∧
    (calm { z with edp := 1 }).inPorts.edp = 1#1 :=
  ⟨⟨_, _, rfl, rfl, by decide⟩, by decide, by decide⟩

/-- PgnDaIsSomeBelowTwoHundredForty, PgnGeIsSomeFromTwoHundredForty and the two constructors: the clauses meet between
239 and 240; ExactlyOneAccessorIsSome and PgnFamilyNeverFaultsAndRoutesOnTheTopNibble. -/
theorem witness_format :
    ((calm { z with pf := 239 }).fault = 0#1 ∧ (calm { z with pf := 239 }).inPorts.pf.toNat < 240) ∧
    ((calm { z with pf := 240 }).fault = 0#1 ∧ 240 ≤ (calm { z with pf := 240 }).inPorts.pf.toNat) := by decide

/-- ExactlyOneConstructorAccepts, on both sides of 240. -/
theorem witness_constructors :
    ((calm { z with raw := 0xEF0000 }).inPorts.raw.toNat ≤ 0x1FFFFFFF ∧
      (extFields 0xEF0000).pf = (calm { z with pf := 0xEF }).inPorts.pf) ∧
    ((calm { z with raw := 0xF00000 }).inPorts.raw.toNat ≤ 0x1FFFFFFF ∧
      (extFields 0xF00000).pf = (calm { z with pf := 0xF0 }).inPorts.pf) := by decide

/-- SigDecClassifiesARawValue, SigDecIsTotalUpToMax: the clauses meet between MAX and MAX + 1; the container clause at W = 8. -/
theorem witness_sigDec :
    ((calm { z with raw := 0xFFF }).fault = 0#1 ∧ (calm { z with raw := 0xFFF }).inPorts.raw.toNat ≤ maxRaw .w12) ∧
    ((calm { z with raw := 0x1000 }).fault = 0#1 ∧ maxRaw .w12 < (calm { z with raw := 0x1000 }).inPorts.raw.toNat) ∧
    (widthBits .w8 = containerBits .w8 ∧ (calm { z with raw := 0xFF }).inPorts.raw.toNat < 2 ^ containerBits .w8) := by
  decide

/-- SigEncBuildsARawValue: its four clauses, at `v_hi`, `v_hi + 1`, and the class codes 1, 4 and 5. -/
theorem witness_sigEnc :
    ((calm { z with val := 0xFA }).inPorts.cls = 0#3 ∧
      (calm { z with val := 0xFA }).inPorts.val.toNat ≤ (chip.sigtab .w8).vHi) ∧
    ((calm { z with val := 0xFB }).inPorts.cls = 0#3 ∧
      (chip.sigtab .w8).vHi < (calm { z with val := 0xFB }).inPorts.val.toNat) ∧
    (1 ≤ (calm { z with cls := 1 }).inPorts.cls.toNat ∧ (calm { z with cls := 4 }).inPorts.cls.toNat ≤ 4 ∧
      5 ≤ (calm { z with cls := 5 }).inPorts.cls.toNat) := by decide

/-- ClassTableFollowsItsClosedForms: the band clause, at the narrowest and the widest band. -/
theorem witness_bands :
    (12 ≤ widthBits .w12 ∧ 0xFB5 ≤ maxRaw .w12) ∧ (12 ≤ widthBits .w32 ∧ 0xFFFFFFFF ≤ maxRaw .w32) := by decide

/-- ClassesPartitionTheRawValues, for the default and for another table. -/
theorem witness_partition :
    configWf chip = true ∧ configWf (withCanon .w12 .reserved 0xFC0) = true ∧ 0xFFF ≤ maxOf .w12 := by decide

/-- DecodedEncodedSignalIsTheSignal, for a Value and for a sentinel. -/
theorem witness_signal_decode_of_encode :
    configWf chip = true ∧ sigEnc chip .w8 { z with val := 0xFA } = .ok { noData with raw := 0xFA } ∧
    ({ z with raw := 0xFA } : InPorts).raw = ({ noData with raw := 0xFA } : OutPorts).raw ∧
    sigEnc chip .w12 { z with cls := 2 } = .ok { noData with raw := 0xFDF } := by decide

/-- EncodedDecodedRawIsTheRawOrTheConstant, for a Value and for a sentinel. -/
theorem witness_signal_encode_of_decode :
    configWf chip = true ∧ ({ z with raw := 0xFFF } : InPorts).raw.toNat ≤ maxOf .w12 ∧
    classOf (chip.sigtab .w12) 0xFAF = .value ∧ classOf (chip.sigtab .w12) 0xFB0 = .sentinel .indicator := by decide

/-- RawValuesThatDoNotRoundTrip, for S6.11. -/
theorem witness_not_round_trip :
    (calm { z with raw := 0xFB5 }).fault = 0#1 ∧ (calm { z with cls := 1 }).fault = 0#1 ∧
    (calm { z with raw := 0xFB5 }).inPorts.raw.toNat ≤ maxRaw .w12 ∧
    (calm { z with cls := 1 }).inPorts.cls = (signalFields (chip.sigtab .w12) 0xFB5).cls ∧
    (calm { z with cls := 1 }).inPorts.val = (signalFields (chip.sigtab .w12) 0xFB5).val := by decide

/-- StepChecksInTheFixedOrder, a request for each of its clauses; FaultedBlockAnswersFaulted and the last clause of
ResetClearsTheLatchAndDropsTheRequest with the first. -/
theorem witness_step_clauses :
    (presents { asked 0x10 z with fault := 1, fcause := 1 } ⟨0x10, z⟩ [] ∧
      ({ asked 0x10 z with fault := 1, fcause := 1 } : State).fault = 1#1) ∧
    (presents (asked 0xB0 { z with cls := 5 }) ⟨0xB0, { z with cls := 5 }⟩ [] ∧
      reservedCode ((0xB0#8).toNat / 16) ((0xB0#8).toNat % 16) { z with cls := 5 }) ∧
    (¬ reservedCode ((0x10#8).toNat / 16) ((0x10#8).toNat % 16) { z with raw := 0x800 } ∧
      priorityFails ((0x10#8).toNat / 16) { z with raw := 0x800 }) ∧
    (¬ reservedCode ((0xB1#8).toNat / 16) ((0xB1#8).toNat % 16) { z with val := 0xFB } ∧
      valueFails ((0xB1#8).toNat / 16) ((0xB1#8).toNat % 16) { z with val := 0xFB }) ∧
    (¬ reservedCode ((0xA1#8).toNat / 16) ((0xA1#8).toNat % 16) { z with raw := 0x100 } ∧
      rangeFails ((0xA1#8).toNat / 16) ((0xA1#8).toNat % 16) { z with raw := 0x100 }) ∧
    (¬ reservedCode ((0x90#8).toNat / 16) ((0x90#8).toNat % 16) { z with pf := 240 } ∧
      ¬ priorityFails ((0x90#8).toNat / 16) { z with pf := 240 } ∧
      ¬ valueFails ((0x90#8).toNat / 16) ((0x90#8).toNat % 16) { z with pf := 240 } ∧
      ¬ rangeFails ((0x90#8).toNat / 16) ((0x90#8).toNat % 16) { z with pf := 240 }) := by
  refine ⟨by decide, ⟨by decide, ?_⟩, ⟨?_, ?_⟩, ⟨?_, ?_⟩, ⟨?_, ?_⟩, ⟨?_, ?_, ?_, ?_⟩⟩ <;>
    simp only [reservedCode, priorityFails, valueFails, rangeFails] <;> decide

/-- ViolationEntersTheFaultedState, ViolationCausesAreTheseAlone, EveryCommandIsAnsweredOnce: a violation happens, and
so does an answer that is not one. -/
theorem witness_violation :
    (∃ t r, exec (.encStd 0) (calm { z with prio := 8 }) = .next t ∧ t.rsp = some r ∧ r.status = .contractViolation) ∧
    (∃ t r, exec .sigEnc8 (calm { z with val := 0xFB }) = .next t ∧ t.rsp = some r ∧ r.status = .contractViolation) ∧
    (∃ t r, exec (.encStd 0) (calm z) = .next t ∧ t.rsp = some r ∧ r.status ≠ .contractViolation) :=
  ⟨⟨_, _, rfl, rfl, rfl⟩, ⟨_, _, rfl, rfl, rfl⟩, ⟨_, _, rfl, rfl, by decide⟩⟩

/-- RangeErrorCausesAreTheseAlone. -/
theorem witness_rangeError :
    ∃ t r, exec (.pgnMkbc 0) (calm { z with pf := 239 }) = .next t ∧ t.rsp = some r ∧ r.status = .rangeError :=
  ⟨_, _, rfl, rfl, rfl⟩

/-- OnlyResetLeavesTheFaultedState: a faulted block that a reset event leaves unfaulted. -/
theorem witness_leaving_by_reset :
    ({ faulty z with host := [.reset] } : State).resetDone = true ∧
    (∀ f c rest, ({ faulty z with host := [.reset] } : State).host ≠ .powerUp f c :: rest) ∧
    ∃ t, step { faulty z with host := [.reset] } = .next t ∧ ({ faulty z with host := [.reset] } : State).fault = 1#1 ∧
      ¬ (t.fault = 1#1 ∧ t.fcause = ({ faulty z with host := [.reset] } : State).fcause) :=
  ⟨rfl, fun _ _ _ h => HostEvent.noConfusion (List.cons.inj h).1, _, rfl, by decide, by decide⟩

/-- StepKeepsTheBlockInvariant, StepTakesOneEventOfTheHost: from a state with the invariant a violating command runs. -/
theorem witness_invariant_step :
    blockOk (asked 0x20 { z with prio := 8 }) = true ∧ ∃ t, step (asked 0x20 { z with prio := 8 }) = .next t :=
  ⟨by decide, _, rfl⟩

/-- ResetLeavesTheLatchClear: an answered request, and a step of each kind that changes the latch. -/
theorem witness_latch_writes :
    (∃ t, step (asked 0x10 z) = .next t ∧ rspValid t = true) ∧
    (∃ t, step { faulty z with host := [.reset] } = .next t ∧ t.fault ≠ (faulty z).fault) ∧
    (∃ t, step (asked 0x20 { z with prio := 8 }) = .next t ∧ t.fcause ≠ (asked 0x20 { z with prio := 8 }).fcause) ∧
    (∃ t, step { calm z with host := [.powerUp 1 3] } = .next t ∧ t.fcause ≠ (calm z).fcause) :=
  ⟨⟨_, rfl, by decide⟩, ⟨_, rfl, by decide⟩, ⟨_, rfl, by decide⟩, ⟨_, rfl, by decide⟩⟩

/-- ResetClearsTheLatchAndDropsTheRequest: the events of its first two clauses. -/
theorem witness_reset_events :
    ({ faulty z with host := [.reset] } : State).host = .reset :: [] ∧
    ({ faulty z with host := [.requestThenReset ⟨0x20, z⟩] } : State).resetDone = true := by decide

/-- CommandsWithoutMeaningAreRefused: the events of its clauses. -/
theorem witness_refused_events :
    ({ State.reset with host := [.powerUp 1 3, .request ⟨0x10, z⟩] } : State).host =
      .powerUp 1#1 3#2 :: .request ⟨0x10, z⟩ :: [] ∧
    (({ State.reset with host := [.request ⟨0x10, z⟩], resetDone := false } : State).resetDone = false) ∧
    (({ State.reset with host := [.requestThenReset ⟨0x10, z⟩], resetDone := false } : State).resetDone = false) ∧
    ({ State.reset with host := [.unstableRequest] } : State).host = .unstableRequest :: [] := by decide

/-- ResponseDependsOnTheRequestAndTheLatchAlone, CommandsUseThePortsTabulated: ports that differ where the command does
not read. -/
theorem witness_purity :
    presents (asked 0x20 { z with prio := 3, sa := 7 }) ⟨0x20, { z with prio := 3, sa := 7 }⟩ [] ∧
    presents (asked 0x20 { z with prio := 3, sa := 7, raw := 9 }) ⟨0x20, { z with prio := 3, sa := 7, raw := 9 }⟩ [] ∧
    decode 0x20#8 = .ok (.encStd 0) ∧
    readsAgree (.encStd 0) { z with prio := 3, sa := 7 } { z with prio := 3, sa := 7, raw := 9 } :=
  ⟨by decide, by decide, by decide, ⟨rfl, rfl⟩⟩

/-- CommandsUseThePortsTabulated: a driven response and a default one. -/
theorem witness_driven :
    (∃ t r, exec (.encStd 0) (calm z) = .next t ∧ t.rsp = some r ∧ r.status = .ok) ∧
    (∃ t r, exec (.encStd 0) (faulty z) = .next t ∧ t.rsp = some r ∧ r.status ≠ .ok) :=
  ⟨⟨_, _, rfl, rfl, rfl⟩, ⟨_, _, rfl, rfl, by decide⟩⟩

/-- CommandsWithoutAViolationAreIdempotent, CommandsChangeOnlyTheResponseAndTheLatch (its last clause by the violation). -/
theorem witness_idempotent :
    (∃ t, exec (.encStd 0) (calm z) = .next t ∧ t.rsp ≠ some ⟨.contractViolation, noData⟩) ∧
    (∃ t, exec (.encStd 0) (calm { z with prio := 8 }) = .next t ∧ t.fault ≠ (calm { z with prio := 8 }).fault) :=
  ⟨⟨_, rfl, by decide⟩, ⟨_, rfl, by decide⟩⟩

/-- ResponsesDoNotDependOnTheOrder: two different commands, neither of which violates a contract. -/
theorem witness_order :
    State.reset.resetDone = true ∧ State.reset.fault = 0#1 ∧
    responses 2 { State.reset with host := [.request ⟨0xA0, z⟩, .request ⟨0x60, z⟩] } =
      [⟨.ok, { noData with cls := 0 }⟩, ⟨.ok, { noData with some := 1 }⟩] ∧
    ∃ t, runSteps 2 { State.reset with host := [.request ⟨0xA0, z⟩, .request ⟨0x60, z⟩] } = .next t ∧ t.fault = 0#1 :=
  ⟨by decide, by decide, by decide, ⟨_, rfl, by decide⟩⟩

/-- FaultedRunsStayFaulted: a faulted block with a reserved and a legal command still to come. -/
theorem witness_faulted_run :
    ({ faulty z with host := [.request ⟨0x00, z⟩, .request ⟨0x10, z⟩] } : State).fault = 1#1 ∧
    ({ faulty z with host := [.request ⟨0x00, z⟩, .request ⟨0x10, z⟩] } : State).resetDone = true ∧
    2 ≤ ({ faulty z with host := [.request ⟨0x00, z⟩, .request ⟨0x10, z⟩] } : State).host.length ∧
    ∀ e ∈ ({ faulty z with host := [.request ⟨0x00, z⟩, .request ⟨0x10, z⟩] } : State).host, isRequest e = true := by
  decide

/-- R149: how a run's outcomes are read. -/
theorem test_readings :
    readStatus .contractViolation = .fault ∧ readStatus .faulted = .fault ∧ readStatus .illegalCmd = .refusal ∧
    readStatus .rangeError = .result ∧ readStatus .ok = .result := by decide

/-- R58: the source's names; the destination constructor has none. -/
theorem test_sourceName : sourceName (.pgnMkbc 0) = some "new_broadcast" ∧ sourceName (.pgnMkdst 0) = none := by decide

/-- R57's own examples; numbers are written without leading zeros. -/
theorem test_text :
    commandText (.decExt 0) { z with raw := 0x0CF004FE } = "DEC_EXT i_raw=0xCF004FE" ∧
    encodedText (.decExt 0) { z with raw := 0x0CF004FE } = "cmd=0x30 i_raw=0xCF004FE" ∧
    responseText .sigDec12 ⟨.ok, { noData with cls := 1 }⟩ = "-> OK o_class=0x1, o_val=0x0" ∧
    responseText (.encStd 0) ⟨.contractViolation, noData⟩ = "-> CONTRACT_VIOLATION" ∧
    commandText .sigEnc16 { z with cls := 4, val := 7 } = "SIG_ENC.16 i_class=0x4" := by decide

end Sys2Proof.Tests
end

/-! # Proofs about the command encoding (spec/30_encoding.md)

Reserved codes (R55, R143) and the port table (R47). Both statements are about the shared operations of the model: the
decoder's two nibbles, the result a command's own rule ends in, and the completion of a command with that result. -/

namespace Sys2Proof.Proofs

open Sys2Proof Sys2Proof.Machine Sys2Proof.SpecSide

/-! ### The command byte: its nibbles and its reserved values (R40, R42, R55) -/

@[simp] theorem cmdOp_toNat (b : Byte) : (cmdOp b).toNat = b.toNat / 16 := by
  have hb := b.isLt
  simp only [cmdOp, BitVec.extractLsb_toNat, Nat.shiftRight_eq_div_pow]
  omega

@[simp] theorem cmdWsel_toNat (b : Byte) : (cmdWsel b).toNat = b.toNat % 16 := by
  simp [cmdWsel]

theorem widthOfWsel_eq_none {wsel : Nibble} : widthOfWsel wsel = none ↔ 9 ≤ wsel.toNat := by
  revert wsel
  decide

/-- A signal operation's byte is refused exactly for a reserved `WSEL`. -/
theorem decodeSignal_error_iff (b : Byte) (make : Width → Instr) :
    (∃ e, decodeSignal b make = .error e) ↔ 9 ≤ b.toNat % 16 := by
  rw [← cmdWsel_toNat, ← widthOfWsel_eq_none, decodeSignal]
  cases widthOfWsel (cmdWsel b) <;> simp

/-- The bytes without a command (R55): a reserved `OP`, or a signal operation with a reserved `WSEL`. -/
theorem decode_error_iff (b : Byte) :
    (∃ e, decode b = .error e) ↔
      (b.toNat / 16 = 0 ∨ 12 ≤ b.toNat / 16 ∨ ((b.toNat / 16 = 10 ∨ b.toNat / 16 = 11) ∧ 9 ≤ b.toNat % 16)) := by
  unfold decode
  rw [cmdOp_toNat]
  split
  case h_10 hop => rw [decodeSignal_error_iff, hop]; simp
  case h_11 hop => rw [decodeSignal_error_iff, hop]; simp
  case h_12 =>
    simp only [imp_false] at *
    exact iff_of_true ⟨_, rfl⟩ (by omega)
  all_goals next hop => rw [hop]; simp

/-! ### `ILLEGAL_CMD` (R143) -/

/-- A request with a reserved byte ends in `IllegalCmd`, whatever its ports hold. -/
theorem requestResult_of_reserved {r : Request} {e : DecodeError} (h : decode r.cmd = .error e) :
    requestResult r = .illegalCmd := by
  simp [requestResult, h]

theorem answersIllegal_of_reserved {b : Byte} (h : ∃ e, decode b = .error e) : answersIllegal b := by
  obtain ⟨e, he⟩ := h
  rintro s p rest ⟨hreset, hhost⟩ hfault
  rw [step_request hreset hhost, requestResult_of_reserved he, complete_illegalCmd (by simpa using hfault)]
  rfl

theorem classOfCode_eq_none {k : BitVec 3} (h : 5 ≤ k.toNat) : classOfCode k = none := by
  obtain ⟨c, -, rfl⟩ | ⟨hnone, -⟩ := classOfCode_cases k
  · have := classCode_le c
    omega
  · exact hnone

/-- `SIG_ENC.W` with a reserved class code is an illegal command (R55, R76). -/
theorem exec_sigEncOf_of_reserved_class (w : Width) {s : State} (hfault : s.fault = 0#1)
    (hcls : 5 ≤ s.inPorts.cls.toNat) : exec (sigEncOf w) s = .next (answered .illegalCmd noData s) := by
  have hresult : sigEnc chip w s.inPorts = .illegalCmd := by rw [sigEnc, classOfCode_eq_none hcls]
  rw [exec_eq_complete, resultOf_sigEncOf, hresult, complete_illegalCmd hfault]
  rfl

/-- Settles O5: the decoder refuses exactly the reserved values of its two nibbles, and both a reserved byte and a
reserved class code complete with `IllegalCmd`; the three counts evaluate. -/
theorem reservedCodesAreIllegalCommands : Obligations.ReservedCodesAreIllegalCommands :=
  ⟨decode_error_iff, rfl, rfl, rfl, fun _ => answersIllegal_of_reserved,
    fun w _ => exec_sigEncOf_of_reserved_class w, fun _ => rfl⟩

/-! ### Commands by operation

The eighteen signal commands are two operations at nine widths. -/

/-- Case analysis of a command by its operation (R41), with the width of a signal operation as a parameter. -/
theorem instr_by_operation {motive : Instr → Prop}
    (decStd : ∀ x, motive (.decStd x)) (encStd : ∀ x, motive (.encStd x))
    (decExt : ∀ x, motive (.decExt x)) (encExt : ∀ x, motive (.encExt x))
    (pgnBits : ∀ x, motive (.pgnBits x)) (pgnDa : ∀ x, motive (.pgnDa x)) (pgnGe : ∀ x, motive (.pgnGe x))
    (pgnMkdst : ∀ x, motive (.pgnMkdst x)) (pgnMkbc : ∀ x, motive (.pgnMkbc x))
    (sigDec : ∀ w, motive (sigDecOf w)) (sigEnc : ∀ w, motive (sigEncOf w)) (i : Instr) : motive i := by
  cases i with
  | decStd x => exact decStd x
  | encStd x => exact encStd x
  | decExt x => exact decExt x
  | encExt x => exact encExt x
  | pgnBits x => exact pgnBits x
  | pgnDa x => exact pgnDa x
  | pgnGe x => exact pgnGe x
  | pgnMkdst x => exact pgnMkdst x
  | pgnMkbc x => exact pgnMkbc x
  | sigDec4 => exact sigDec .w4
  | sigDec8 => exact sigDec .w8
  | sigDec10 => exact sigDec .w10
  | sigDec12 => exact sigDec .w12
  | sigDec16 => exact sigDec .w16
  | sigDec20 => exact sigDec .w20
  | sigDec24 => exact sigDec .w24
  | sigDec28 => exact sigDec .w28
  | sigDec32 => exact sigDec .w32
  | sigEnc4 => exact sigEnc .w4
  | sigEnc8 => exact sigEnc .w8
  | sigEnc10 => exact sigEnc .w10
  | sigEnc12 => exact sigEnc .w12
  | sigEnc16 => exact sigEnc .w16
  | sigEnc20 => exact sigEnc .w20
  | sigEnc24 => exact sigEnc .w24
  | sigEnc28 => exact sigEnc .w28
  | sigEnc32 => exact sigEnc .w32

theorem readsAgree_sigDecOf (w : Width) (p q : InPorts) : readsAgree (sigDecOf w) p q ↔ p.raw = q.raw := by
  cases w <;> rfl

theorem readsAgree_sigEncOf (w : Width) (p q : InPorts) :
    readsAgree (sigEncOf w) p q ↔ p.cls = q.cls ∧ (p.cls = 0#3 → p.val = q.val) := by
  cases w <;> rfl

theorem drivesOnly_sigDecOf (w : Width) (o : OutPorts) :
    drivesOnly (sigDecOf w) o ↔ o = { outDefault with cls := o.cls, val := o.val } := by
  cases w <;> rfl

theorem drivesOnly_sigEncOf (w : Width) (o : OutPorts) :
    drivesOnly (sigEncOf w) o ↔ o = { outDefault with raw := o.raw } := by
  cases w <;> rfl

theorem mayAnswer_sigDecOf (w : Width) (st : Status) : mayAnswer (sigDecOf w) st ↔ st = .rangeError := by
  cases w <;> rfl

theorem mayAnswer_sigEncOf (w : Width) (st : Status) :
    mayAnswer (sigEncOf w) st ↔ st = .contractViolation ∨ st = .illegalCmd := by
  cases w <;> rfl

/-! ### The ports a command reads (R47, column 'Reads') -/

theorem eq_zero_of_classOfCode_value {k : BitVec 3} : classOfCode k = some .value → k = 0#3 := by
  revert k
  decide

theorem sigDec_congr (cfg : Config) (w : Width) {p q : InPorts} (h : p.raw = q.raw) :
    sigDec cfg w p = sigDec cfg w q := by
  simp only [sigDec, h]

/-- `i_val` reaches the result of `SIG_ENC.W` for a Value only, whose class code is 0. -/
theorem sigEnc_congr (cfg : Config) (w : Width) {p q : InPorts} (hcls : p.cls = q.cls)
    (hval : p.cls = 0#3 → p.val = q.val) : sigEnc cfg w p = sigEnc cfg w q := by
  unfold sigEnc
  rw [← hcls]
  split
  · rfl
  next hvalue => rw [hval (eq_zero_of_classOfCode_value hvalue)]
  · rfl

/-- The result of a command's rule is a function of the ports tabulated for it. -/
theorem resultOf_congr {i : Instr} {p q : InPorts} (h : readsAgree i p q) : resultOf i p = resultOf i q := by
  cases i using instr_by_operation with
  | decStd x => simp only [resultOf, decStd, show p.raw = q.raw from h]
  | encStd x =>
    obtain ⟨hprio, hsa⟩ := h
    simp only [resultOf, encStd, hprio, hsa]
  | decExt x => simp only [resultOf, decExt, show p.raw = q.raw from h]
  | encExt x =>
    obtain ⟨hprio, hedp, hdp, hpf, hps, hsa⟩ := h
    simp only [resultOf, encExt, hprio, hedp, hdp, hpf, hps, hsa]
  | pgnBits x =>
    obtain ⟨hedp, hdp, hpf, hps⟩ := h
    simp only [resultOf, pgnBits, hedp, hdp, hpf, hps]
  | pgnDa x =>
    obtain ⟨hpf, hps⟩ := h
    simp only [resultOf, pgnDa, hpf, hps]
  | pgnGe x =>
    obtain ⟨hpf, hps⟩ := h
    simp only [resultOf, pgnGe, hpf, hps]
  | pgnMkdst x =>
    obtain ⟨hedp, hdp, hpf, hps⟩ := h
    simp only [resultOf, pgnMkdst, drivePgn, hedp, hdp, hpf, hps]
  | pgnMkbc x =>
    obtain ⟨hedp, hdp, hpf, hps⟩ := h
    simp only [resultOf, pgnMkbc, drivePgn, hedp, hdp, hpf, hps]
  | sigDec w =>
    rw [resultOf_sigDecOf, resultOf_sigDecOf]
    exact sigDec_congr chip w ((readsAgree_sigDecOf w p q).1 h)
  | sigEnc w =>
    obtain ⟨hcls, hval⟩ := (readsAgree_sigEncOf w p q).1 h
    rw [resultOf_sigEncOf, resultOf_sigEncOf]
    exact sigEnc_congr chip w hcls hval

/-- Completing a command reads no operand port: the ports may be replaced before or after. -/
theorem complete_samplePorts (r : Result) (q : InPorts) (s : State) :
    complete r (samplePorts q s) = samplePorts q (complete r s) := by
  unfold complete
  rw [samplePorts_fault]
  split
  · rfl
  · cases r <;> rfl

/-- Ports that agree where the command reads give the same next state, but for the ports themselves. -/
theorem exec_of_readsAgree {i : Instr} {s : State} {q : InPorts} (h : readsAgree i s.inPorts q) :
    exec i (samplePorts q s) = .next (samplePorts q (complete (resultOf i s.inPorts) s)) := by
  rw [exec_eq_complete, samplePorts_inPorts, ← resultOf_congr h, complete_samplePorts]

/-! ### The ports a command drives and its statuses (R47, last two columns) -/

/-- A result keeps to the command's row of R47: `OK` drives the tabulated ports alone, any other status is tabulated. -/
def resultTabulated (i : Instr) : Result → Prop
  | .ok out => drivesOnly i out
  | .rangeError => mayAnswer i .rangeError
  | .contractViolation _ => mayAnswer i .contractViolation
  | .illegalCmd => mayAnswer i .illegalCmd

/-- A response keeps to the command's row of R47. -/
def responseTabulated (i : Instr) (r : Response) : Prop :=
  (r.status = .ok → drivesOnly i r.out) ∧ (r.status ≠ .ok → r.out = noData) ∧
    (r.status = .ok ∨ r.status = .faulted ∨ mayAnswer i r.status)

theorem driveOption_eq (present : Bool) (b : Byte) :
    driveOption present b =
      { outDefault with some := (driveOption present b).some, byte := (driveOption present b).byte } := by
  cases present <;> rfl

theorem sigDec_tabulated (w : Width) (p : InPorts) : resultTabulated (sigDecOf w) (sigDec chip w p) := by
  unfold sigDec
  split
  · exact (mayAnswer_sigDecOf w _).2 rfl
  · exact (drivesOnly_sigDecOf w _).2 rfl

theorem sigEnc_tabulated (w : Width) (p : InPorts) : resultTabulated (sigEncOf w) (sigEnc chip w p) := by
  unfold sigEnc
  split
  · exact (mayAnswer_sigEncOf w _).2 (.inr rfl)
  · split
    · exact (mayAnswer_sigEncOf w _).2 (.inl rfl)
    · exact (drivesOnly_sigEncOf w _).2 rfl
  · exact (drivesOnly_sigEncOf w _).2 rfl

/-- Every command's rule ends in a result its row tabulates: `rfl` closes an `OK` branch because the rule writes the
tabulated ports over the defaults, and another branch because its status is the row's own. -/
theorem resultOf_tabulated (i : Instr) (p : InPorts) : resultTabulated i (resultOf i p) := by
  cases i using instr_by_operation with
  | decStd x => rw [resultOf, decStd]; split <;> rfl
  | encStd x => rw [resultOf, encStd]; split <;> rfl
  | decExt x => rw [resultOf, decExt]; split <;> rfl
  | encExt x => rw [resultOf, encExt]; split <;> rfl
  | pgnBits x => rfl
  | pgnDa x => exact driveOption_eq _ _
  | pgnGe x => exact driveOption_eq _ _
  | pgnMkdst x => rw [resultOf, pgnMkdst]; split <;> rfl
  | pgnMkbc x => rw [resultOf, pgnMkbc]; split <;> rfl
  | sigDec w => rw [resultOf_sigDecOf]; exact sigDec_tabulated w p
  | sigEnc w => rw [resultOf_sigEncOf]; exact sigEnc_tabulated w p

/-- A response without data whose status is `FAULTED` or tabulated. -/
theorem responseTabulated_noData {i : Instr} {st : Status} (hok : st ≠ .ok) (h : st = .faulted ∨ mayAnswer i st) :
    responseTabulated i ⟨st, noData⟩ :=
  ⟨fun hst => absurd hst hok, fun _ => rfl, .inr h⟩

/-- Completing a command with a tabulated result gives a tabulated response, also on a faulted block. -/
theorem complete_tabulated {i : Instr} {r : Result} (hr : resultTabulated i r) {s : State} {resp : Response}
    (h : (complete r s).rsp = some resp) : responseTabulated i resp := by
  obtain ⟨-, ht⟩ | ⟨-, ⟨o, rfl, ht⟩ | ⟨rfl, ht⟩ | ⟨c, rfl, ht⟩ | ⟨rfl, ht⟩⟩ := complete_cases r s <;>
    rw [ht] at h <;> cases h
  · exact responseTabulated_noData (by decide) (.inl rfl)
  · exact ⟨fun _ => hr, fun hst => absurd rfl hst, .inl rfl⟩
  · exact responseTabulated_noData (by decide) (.inr hr)
  · exact responseTabulated_noData (by decide) (.inr hr)
  · exact responseTabulated_noData (by decide) (.inr hr)

/-- Settles O47: a command completes with the result of its own rule, which depends on the tabulated input ports
alone and is one its row tabulates; a reserved byte completes with `IllegalCmd`. -/
theorem commandsUseThePortsTabulated : Obligations.CommandsUseThePortsTabulated := by
  refine ⟨fun i s q h => ?reads, fun i s t r ht hr => ?answers, fun _ => answersIllegal_of_reserved⟩
  case reads => exact ⟨_, _, exec_eq_complete i s, exec_of_readsAgree h, rfl, rfl, rfl⟩
  case answers =>
    rw [exec_next ht] at hr
    exact complete_tabulated (resultOf_tabulated i s.inPorts) hr

end Sys2Proof.Proofs

/-! # Proofs about the signal classifier (spec/40_signal.md)

`SIG_DEC.W` (R73, R74) and `SIG_ENC.W` (R76, R77). First what a command answers, read off the result of its own rule; then
the byte of a signal operation, the class codes by the cut points, and the result of each rule case by case. -/

namespace Sys2Proof.Proofs

open Sys2Proof Sys2Proof.Machine Sys2Proof.SpecSide

/-! ### What a command answers, by the result of its rule (R146) -/

section
variable {i : Instr} {s : State}

theorem exec_of_ok {o : OutPorts} (hfault : s.fault = 0#1) (h : resultOf i s.inPorts = .ok o) :
    exec i s = .next (answered .ok o s) := by
  rw [exec_eq_complete, h, complete_ok o hfault]
  rfl

theorem exec_of_rangeError (hfault : s.fault = 0#1) (h : resultOf i s.inPorts = .rangeError) :
    exec i s = .next (answered .rangeError noData s) := by
  rw [exec_eq_complete, h, complete_rangeError hfault]
  rfl

theorem exec_of_contractViolation {c : Cause} (hfault : s.fault = 0#1)
    (h : resultOf i s.inPorts = .contractViolation c) : exec i s = .next (violated (causeCode c) s) := by
  rw [exec_eq_complete, h, complete_contractViolation c hfault]
  rfl

end

/-- Every command is answered `FAULTED` while `FAULT` is 1 (R144). -/
theorem answersFaulted_all (i : Instr) : answersFaulted i := by
  intro s hfault
  rw [exec_eq_complete, complete_of_faulted _ hfault]
  rfl

/-! ### The byte of a signal operation (R40 to R42) -/

/-- Putting a `WSEL` into a byte whose low nibble is clear adds it. -/
theorem or_setWidth_toNat (k : Nat) (hk : k < 16) (n : Nibble) :
    (BitVec.ofNat 8 (16 * k) ||| n.setWidth 8).toNat = 16 * k + n.toNat := by
  have hn : n.toNat < 2 ^ 4 := n.isLt
  rw [BitVec.toNat_or, BitVec.toNat_ofNat, BitVec.toNat_setWidth, Nat.mod_eq_of_lt (by omega),
    Nat.mod_eq_of_lt (by omega)]
  exact (Nat.two_pow_add_eq_or_of_lt hn k).symm

theorem answersIllegal_of_reserved_wsel {k : Nat} (hk : k = 10 ∨ k = 11) {n : Nibble} (hn : 9 ≤ n.toNat) :
    answersIllegal (BitVec.ofNat 8 (16 * k) ||| n.setWidth 8) := by
  have hbyte := or_setWidth_toNat k (by omega) n
  have hlt : n.toNat < 16 := n.isLt
  refine answersIllegal_of_reserved ((decode_error_iff _).2 (.inr (.inr ⟨?op, ?wsel⟩)))
  case op => omega
  case wsel => omega

theorem decode_sigDec_byte (w : Width) : decode (0xA0#8 ||| (wselOfWidth w).setWidth 8) = .ok (sigDecOf w) := by
  cases w <;> rfl

theorem decode_sigEnc_byte (w : Width) : decode (0xB0#8 ||| (wselOfWidth w).setWidth 8) = .ok (sigEncOf w) := by
  cases w <;> rfl

/-! ### `MAX(W)` -/

theorem maxRaw_lt (w : Width) : maxRaw w < 2 ^ 32 := by
  cases w <;> decide

theorem ofNat_maxRaw_toNat (w : Width) : (BitVec.ofNat 32 (maxRaw w)).toNat = maxRaw w := by
  rw [BitVec.toNat_ofNat, Nat.mod_eq_of_lt (maxRaw_lt w)]

/-- Where W is the container's width, no value of the container is above `MAX(W)` (R74). -/
theorem le_maxRaw_of_container {w : Width} (hw : widthBits w = containerBits w) {r : Nat}
    (hr : r < 2 ^ containerBits w) : r ≤ maxRaw w := by
  rw [← hw] at hr
  exact Nat.le_sub_one_of_lt hr

/-! ### Class codes by the cut points (R71, R72) -/

/-- The model's class of a raw value has the code the cut points give it. -/
theorem classCode_classOf (c : SigCuts) (r : Nat) : classCode (classOf c r) = codeBy c r := by
  simp only [classOf, codeBy, apply_ite classCode]
  rfl

theorem codeBy_of_value {c : SigCuts} {r : Nat} (h : r ≤ c.vHi) : codeBy c r = 0#3 :=
  if_pos h

theorem codeBy_of_indicator {c : SigCuts} {r : Nat} (hlo : c.vHi < r) (hhi : r ≤ c.iHi) : codeBy c r = 1#3 := by
  rw [codeBy, if_neg (by omega), if_pos hhi]

theorem codeBy_of_notAvailable {w : Width} {r : Nat} (h : (chip.sigtab w).eHi < r) :
    codeBy (chip.sigtab w) r = 4#3 := by
  have ⟨hvi, hir, hre, _⟩ := cuts_ordered chip_wf w
  rw [codeBy, if_neg (by omega), if_neg (by omega), if_neg (by omega), if_neg (by omega)]

theorem signalFields_of_value {c : SigCuts} {raw : Word} (h : raw.toNat ≤ c.vHi) :
    signalFields c raw = { noData with cls := 0#3, val := raw } := by
  rw [signalFields, codeBy_of_value h, if_pos h]

theorem signalFields_of_sentinel {c : SigCuts} {raw : Word} (h : c.vHi < raw.toNat) :
    signalFields c raw = { noData with cls := codeBy c raw.toNat, val := 0#32 } := by
  rw [signalFields, if_neg (by omega)]

/-- `MAX(W)` is NotAvailable (R71). -/
theorem signalFields_maxRaw (w : Width) :
    signalFields (chip.sigtab w) (BitVec.ofNat 32 (maxRaw w)) = { noData with cls := 4#3, val := 0#32 } := by
  have ⟨hvi, hir, hre, (hem : (chip.sigtab w).eHi < maxRaw w)⟩ := cuts_ordered chip_wf w
  rw [signalFields_of_sentinel (by rw [ofNat_maxRaw_toNat]; omega), ofNat_maxRaw_toNat, codeBy_of_notAvailable hem]

/-! ### `SIG_DEC.W` (R73, R74) -/

theorem sigDec_of_le (cfg : Config) {w : Width} {p : InPorts} (h : p.raw.toNat ≤ maxRaw w) :
    sigDec cfg w p = .ok (signalFields (cfg.sigtab w) p.raw) := by
  have hrange : ¬ maxOf w < p.raw.toNat := Nat.not_lt.2 h
  simp only [sigDec, if_neg hrange, classCode_classOf, classOf_eq_value]
  rfl

theorem sigDec_of_gt (cfg : Config) {w : Width} {p : InPorts} (h : maxRaw w < p.raw.toNat) :
    sigDec cfg w p = .rangeError :=
  if_pos h

/-- Settles O24: the result of `SIG_DEC.W` on either side of `MAX(W)` and the class codes at the ends of the Value range
and at `MAX(W)`, from the order of the cut points; the reserved `WSEL`s have no command, and the two worked examples
evaluate. -/
theorem sigDecClassifiesARawValue : Obligations.SigDecClassifiesARawValue := by
  refine ⟨fun w => ?width, fun n => answersIllegal_of_reserved_wsel (k := 10) (.inl rfl), rfl, rfl⟩
  have ⟨hvi, _, _, _⟩ := cuts_ordered chip_wf w
  refine ⟨decode_sigDec_byte w, fun s hfault hle => ?inRange, fun s hfault hgt => ?above, answersFaulted_all _,
    signalFields_of_value (Nat.zero_le _), signalFields_maxRaw w, codeBy_of_value le_rfl,
    codeBy_of_indicator (Nat.lt_succ_self _) hvi, fun s hw => le_maxRaw_of_container hw, fun s hw => ?container⟩
  case inRange => exact exec_of_ok hfault (by rw [resultOf_sigDecOf, sigDec_of_le chip hle])
  case above => exact exec_of_rangeError hfault (by rw [resultOf_sigDecOf, sigDec_of_gt chip hgt])
  case container =>
    subst hw
    exact le_maxRaw_of_container rfl s.inPorts.raw.isLt

/-! ### `SIG_ENC.W` (R76, R77) -/

theorem classOfCode_of_sentinel {k : BitVec 3} : 1 ≤ k.toNat → k.toNat ≤ 4 →
    classOfCode k = some (.sentinel (sentinelOf k)) := by
  revert k
  decide

section
variable (cfg : Config) (w : Width) {p : InPorts}

theorem sigEnc_of_value_le (hcls : p.cls = 0#3) (h : p.val.toNat ≤ (cfg.sigtab w).vHi) :
    sigEnc cfg w p = .ok { noData with raw := p.val } := by
  rw [sigEnc, hcls]
  exact if_neg (Nat.not_lt.2 h)

theorem sigEnc_of_value_gt (hcls : p.cls = 0#3) (h : (cfg.sigtab w).vHi < p.val.toNat) :
    sigEnc cfg w p = .contractViolation .valueRange := by
  rw [sigEnc, hcls]
  exact if_pos h

theorem sigEnc_of_sentinel (hlo : 1 ≤ p.cls.toNat) (hhi : p.cls.toNat ≤ 4) :
    sigEnc cfg w p = .ok { noData with raw := cfg.sigcanon w (sentinelOf p.cls) } := by
  rw [sigEnc, classOfCode_of_sentinel hlo hhi]
  rfl

end

/-- Settles O26: the result of `SIG_ENC.W` for a Value on either side of `v_hi`, for a sentinel and for a reserved class
code; that the constants fit and `v_hi` is below `MAX(W)` is the well-formedness of the block's tables. -/
theorem sigEncBuildsARawValue : Obligations.SigEncBuildsARawValue := by
  refine ⟨fun w => ?width, fun n => answersIllegal_of_reserved_wsel (k := 11) (.inr rfl), by decide, rfl⟩
  have ⟨hvi, hir, hre, (hem : (chip.sigtab w).eHi < maxRaw w)⟩ := cuts_ordered chip_wf w
  refine ⟨decode_sigEnc_byte w, fun s hfault hcls hle => ?value, fun s hfault hcls hgt => ?violation,
    fun s hfault hlo hhi => ?sentinel, fun s => exec_sigEncOf_of_reserved_class w, answersFaulted_all _,
    fun c => (canon_in_class chip_wf w c).1, by omega⟩
  case value => exact exec_of_ok hfault (by rw [resultOf_sigEncOf, sigEnc_of_value_le chip w hcls hle])
  case violation =>
    exact exec_of_contractViolation (c := .valueRange) hfault
      (by rw [resultOf_sigEncOf, sigEnc_of_value_gt chip w hcls hgt])
  case sentinel => exact exec_of_ok hfault (by rw [resultOf_sigEncOf, sigEnc_of_sentinel chip w hlo hhi])

end Sys2Proof.Proofs

/-! # Proofs about the PGN format router (spec/41_pgn.md)

`PGN_BITS` (R105), the two accessors (R102, R103) and the two constructors (R106, R107). First the byte of any command;
then the result of each rule: the sum `PGN_BITS` packs, and what the others answer on either side of format 240. -/

namespace Sys2Proof.Proofs

open Sys2Proof Sys2Proof.Machine Sys2Proof.SpecSide

/-! ### The byte of a command: `OP` above `WSEL` (R40 to R42) -/

theorem append_toNat (op wsel : Nibble) : (op ++ wsel).toNat = 16 * op.toNat + wsel.toNat := by
  rw [BitVec.toNat_append, Nat.shiftLeft_eq, Nat.mul_comm]
  exact (Nat.two_pow_add_eq_or_of_lt wsel.isLt op.toNat).symm

theorem cmdOp_append (op wsel : Nibble) : cmdOp (op ++ wsel) = op := by
  apply BitVec.eq_of_toNat_eq
  have hwsel := wsel.isLt
  rw [cmdOp_toNat, append_toNat]
  omega

theorem cmdWsel_append (op wsel : Nibble) : cmdWsel (op ++ wsel) = wsel := by
  apply BitVec.eq_of_toNat_eq
  have hwsel := wsel.isLt
  rw [cmdWsel_toNat, append_toNat]
  omega

/-- The decoder reads back the two nibbles the encoder appends, and the row they select is the command. -/
theorem decode_encode (i : Instr) : decode (encode i) = .ok i := by
  rw [encode, decode, cmdOp_append, cmdWsel_append]
  cases i <;> rfl

/-- The statements write a byte as its pattern with the `WSEL` put in (R41). -/
theorem encode_eq_or (i : Instr) : encode i = BitVec.ofNat 8 (16 * (opOf i).toNat) ||| (wselOf i).setWidth 8 := by
  apply BitVec.eq_of_toNat_eq
  rw [or_setWidth_toNat _ (opOf i).isLt, encode, append_toNat]

theorem decode_byte (i : Instr) :
    decode (BitVec.ofNat 8 (16 * (opOf i).toNat) ||| (wselOf i).setWidth 8) = .ok i := by
  rw [← encode_eq_or, decode_encode]

/-! ### `PGN_BITS` (R105): the 18-bit number of the four fields (R50) -/

theorem pgnNat_lt (p : InPorts) : pgnNat p < 2 ^ 18 := by
  have hedp := p.edp.isLt
  have hdp := p.dp.isLt
  have hpf := p.pf.isLt
  have hps := p.ps.isLt
  unfold pgnNat
  omega

theorem ofNat_pgnNat_toNat (p : InPorts) : (BitVec.ofNat 32 (pgnNat p)).toNat = pgnNat p := by
  have hlt := pgnNat_lt p
  rw [BitVec.toNat_ofNat, Nat.mod_eq_of_lt (by omega)]

/-- R54 for a PGN: each field lies below the place of the next, so the number fixes them all. -/
theorem fields_eq_of_pgnNat_eq {p q : InPorts} (h : pgnNat p = pgnNat q) :
    p.edp = q.edp ∧ p.dp = q.dp ∧ p.pf = q.pf ∧ p.ps = q.ps := by
  have hdp := p.dp.isLt
  have hpf := p.pf.isLt
  have hps := p.ps.isLt
  have hdp' := q.dp.isLt
  have hpf' := q.pf.isLt
  have hps' := q.ps.isLt
  unfold pgnNat at h
  simp only [← BitVec.toNat_inj]
  omega

/-- Every number of 18 bits is the sum of the fields cut out of it. -/
theorem pgnNat_of_fields {p : InPorts} {n : Nat} (hn : n < 2 ^ 18) (hedp : p.edp = BitVec.ofNat 1 (n / 2 ^ 17))
    (hdp : p.dp = BitVec.ofNat 1 (n / 2 ^ 16)) (hpf : p.pf = BitVec.ofNat 8 (n / 2 ^ 8))
    (hps : p.ps = BitVec.ofNat 8 n) : pgnNat p = n := by
  rw [pgnNat, hedp, hdp, hpf, hps]
  simp only [BitVec.toNat_ofNat]
  omega

theorem pgnBits_eq (p : InPorts) : pgnBits p = .ok { noData with raw := BitVec.ofNat 32 (pgnNat p) } := by
  have hpack : packPgn p.edp p.dp p.pf p.ps = BitVec.ofNat 32 (pgnNat p) := by
    rw [pgnNat, ← packPgn_toNat, BitVec.ofNat_toNat, BitVec.setWidth_eq]
  rw [pgnBits, hpack]
  rfl

theorem exec_pgnBits (w : Nibble) {s : State} (hfault : s.fault = 0#1) :
    exec (.pgnBits w) s = .next (answered .ok { noData with raw := BitVec.ofNat 32 (pgnNat s.inPorts) } s) :=
  exec_of_ok hfault (pgnBits_eq s.inPorts)

/-- Equal responses carry the same number: 18 bits fit `o_raw`. -/
theorem pgnNat_eq_of_rsp_eq {w : Nibble} {s t s' t' : State} (hs : s.fault = 0#1) (ht : t.fault = 0#1)
    (hs' : exec (.pgnBits w) s = .next s') (ht' : exec (.pgnBits w) t = .next t') (hrsp : s'.rsp = t'.rsp) :
    pgnNat s.inPorts = pgnNat t.inPorts := by
  rw [exec_pgnBits w hs] at hs'
  rw [exec_pgnBits w ht] at ht'
  cases hs'
  cases ht'
  have hraw : BitVec.ofNat 32 (pgnNat s.inPorts) = BitVec.ofNat 32 (pgnNat t.inPorts) :=
    congrArg (fun r : Response => r.out.raw) (Option.some.inj hrsp)
  rw [← ofNat_pgnNat_toNat s.inPorts, hraw, ofNat_pgnNat_toNat]

/-- Settles O16: packing the four fields is their sum, a number of 18 bits; the fields do not overlap, so the answer
fixes them, and cutting any such number into its fields gives it back. -/
theorem pgnBitsPacksEighteenBits : Obligations.PgnBitsPacksEighteenBits := by
  intro w
  refine ⟨decode_byte (.pgnBits w), fun s hfault => ⟨exec_pgnBits w hfault, pgnNat_lt _⟩, answersFaulted_all _,
    fun s t s' t' hs ht hs' ht' hrsp => fields_eq_of_pgnNat_eq (pgnNat_eq_of_rsp_eq hs ht hs' ht' hrsp),
    fun n hn => ⟨.ofNat 1 (n / 2 ^ 17), .ofNat 1 (n / 2 ^ 16), .ofNat 8 (n / 2 ^ 8), .ofNat 8 n,
      fun s hfault hedp hdp hpf hps => ?onto⟩⟩
  case onto => rw [exec_pgnBits w hfault, pgnNat_of_fields (Nat.lt_succ_of_le hn) hedp hdp hpf hps]

/-! ### Routing on the format byte (R101 to R103, R106, R107) -/

theorem isBroadcast_of_lt {pf : Byte} (h : pf.toNat < 240) : isBroadcast pf = false :=
  decide_eq_false (Nat.not_le.2 h)

theorem isBroadcast_of_le {pf : Byte} (h : 240 ≤ pf.toNat) : isBroadcast pf = true :=
  decide_eq_true h

section
variable {p : InPorts}

theorem pgnDa_of_lt (h : p.pf.toNat < 240) : pgnDa p = .ok (someByte p.ps) := by
  rw [pgnDa, isBroadcast_of_lt h]
  rfl

theorem pgnDa_of_le (h : 240 ≤ p.pf.toNat) : pgnDa p = .ok noData := by
  rw [pgnDa, isBroadcast_of_le h]
  rfl

theorem pgnGe_of_le (h : 240 ≤ p.pf.toNat) : pgnGe p = .ok (someByte p.ps) := by
  rw [pgnGe, isBroadcast_of_le h]
  rfl

theorem pgnGe_of_lt (h : p.pf.toNat < 240) : pgnGe p = .ok noData := by
  rw [pgnGe, isBroadcast_of_lt h]
  rfl

theorem pgnMkdst_of_lt (h : p.pf.toNat < 240) : pgnMkdst p = .ok (echoed p 0#1) := by
  rw [pgnMkdst, isBroadcast_of_lt h]
  rfl

theorem pgnMkdst_of_le (h : 240 ≤ p.pf.toNat) : pgnMkdst p = .rangeError := by
  rw [pgnMkdst, isBroadcast_of_le h]
  rfl

theorem pgnMkbc_of_le (h : 240 ≤ p.pf.toNat) : pgnMkbc p = .ok (echoed p 1#1) := by
  rw [pgnMkbc, isBroadcast_of_le h]
  rfl

theorem pgnMkbc_of_lt (h : p.pf.toNat < 240) : pgnMkbc p = .rangeError := by
  rw [pgnMkbc, isBroadcast_of_lt h]
  rfl

end

/-- Settles O17: the result of `pgnDa` on either side of format 240, where the routing predicate turns. -/
theorem pgnDaIsSomeBelowTwoHundredForty : Obligations.PgnDaIsSomeBelowTwoHundredForty := fun w =>
  ⟨decode_byte (.pgnDa w), fun _ hfault hlt => exec_of_ok hfault (pgnDa_of_lt hlt),
    fun _ hfault hle => exec_of_ok hfault (pgnDa_of_le hle), answersFaulted_all _⟩

/-- Settles O18: the result of `pgnGe` on either side of format 240, where the routing predicate turns. -/
theorem pgnGeIsSomeFromTwoHundredForty : Obligations.PgnGeIsSomeFromTwoHundredForty := fun w =>
  ⟨decode_byte (.pgnGe w), fun _ hfault hle => exec_of_ok hfault (pgnGe_of_le hle),
    fun _ hfault hlt => exec_of_ok hfault (pgnGe_of_lt hlt), answersFaulted_all _⟩

/-- Settles O20: the result of `pgnMkdst` on either side of format 240, where the routing predicate turns. -/
theorem pgnMkdstTakesFormatsBelowTwoHundredForty : Obligations.PgnMkdstTakesFormatsBelowTwoHundredForty := fun w =>
  ⟨decode_byte (.pgnMkdst w), fun _ hfault hlt => exec_of_ok hfault (pgnMkdst_of_lt hlt),
    fun _ hfault hle => exec_of_rangeError hfault (pgnMkdst_of_le hle), answersFaulted_all _⟩

/-- Settles O21: the result of `pgnMkbc` on either side of format 240, where the routing predicate turns. -/
theorem pgnMkbcTakesFormatsFromTwoHundredForty : Obligations.PgnMkbcTakesFormatsFromTwoHundredForty := fun w =>
  ⟨decode_byte (.pgnMkbc w), fun _ hfault hle => exec_of_ok hfault (pgnMkbc_of_le hle),
    fun _ hfault hlt => exec_of_rangeError hfault (pgnMkbc_of_lt hlt), answersFaulted_all _⟩

end Sys2Proof.Proofs

/-! # Proofs about the CAN-ID parser (spec/42_identifier.md)

`DEC_STD` (R120), `ENC_STD` (R121), `DEC_EXT` (R122), `ENC_EXT` (R123) and the priority assertion they share (R126). First
the assertion in its three forms (a shift, a bound, a slice); then, for each operation, when its rule raises the violation
and what it answers otherwise. -/

namespace Sys2Proof.Proofs

open Sys2Proof Sys2Proof.Machine Sys2Proof.SpecSide

/-! ### The priority assertion in numbers (R126) -/

/-- The number above position `n` has more than three bits exactly when the whole has more than `n + 3`. -/
theorem eight_le_shiftRight_iff (v : Word) (n : Nat) : 8 ≤ (v >>> n).toNat ↔ 8 * 2 ^ n ≤ v.toNat := by
  rw [BitVec.toNat_ushiftRight, Nat.shiftRight_eq_div_pow, Nat.le_div_iff_mul_le (Nat.two_pow_pos n)]

/-- A number reaches `2 ^ lo` exactly when a bit of it from `lo` up to the top is set. -/
theorem two_pow_le_iff_extractLsb_top_ne_zero {hi : Nat} (v : BitVec (hi + 1)) {lo : Nat} (hlo : lo ≤ hi) :
    2 ^ lo ≤ v.toNat ↔ v.extractLsb hi lo ≠ 0#(hi - lo + 1) := by
  have hwidth : 2 ^ lo * 2 ^ (hi - lo + 1) = 2 ^ (hi + 1) := by rw [← pow_add]; congr 1; omega
  have hfits : v.toNat / 2 ^ lo < 2 ^ (hi - lo + 1) := Nat.div_lt_of_lt_mul (hwidth ▸ v.isLt)
  rw [ne_eq, ← BitVec.toNat_inj, BitVec.extractLsb_toNat, Nat.shiftRight_eq_div_pow, Nat.mod_eq_of_lt hfits,
    BitVec.toNat_ofNat, Nat.zero_mod, Nat.div_eq_zero_iff_lt (Nat.two_pow_pos lo), Nat.not_lt]

theorem standard_priority_fails_iff (v : Word) : 8 ≤ (v >>> 8).toNat ↔ 0x7FF < v.toNat :=
  eight_le_shiftRight_iff v 8

theorem extended_priority_fails_iff (v : Word) : 8 ≤ (v >>> 26).toNat ↔ 0x1FFFFFFF < v.toNat :=
  eight_le_shiftRight_iff v 26

/-! ### When a command ends in a ContractViolation (R141) -/

theorem outDefault_eq_noData : outDefault = noData := rfl

/-- R45: the code tells the causes apart. -/
theorem causeCode_inj {c d : Cause} : causeCode c = causeCode d ↔ c = d := by
  cases c <;> cases d <;> decide

/-- `exec_of_contractViolation` and its converse: the answer shows the status, and the latch shows the cause. -/
theorem exec_eq_violated_iff {i : Instr} {s : State} {c : Cause} (hfault : s.fault = 0#1) :
    exec i s = .next (violated (causeCode c) s) ↔ resultOf i s.inPorts = .contractViolation c := by
  rw [exec_eq_complete]
  cases resultOf i s.inPorts with
  | ok o => simp [complete_ok o hfault, respond, violated]
  | rangeError => simp [complete_rangeError hfault, respond, violated]
  | contractViolation d =>
    simp [complete_contractViolation d hfault, raiseViolation, respond, violated, causeCode_inj, outDefault_eq_noData]
  | illegalCmd => simp [complete_illegalCmd hfault, respond, violated]

section
variable {p : InPorts}

/-! ### `DEC_STD` (R120) -/

theorem decStd_violates_iff : decStd p = .contractViolation .priority ↔ 8 ≤ (p.raw >>> 8).toNat := by
  simp [decStd]

theorem decStd_of_le (h : p.raw.toNat ≤ 0x7FF) : decStd p = .ok (stdFields p.raw.toNat) := by
  rw [decStd, if_neg (mt (standard_priority_fails_iff p.raw).1 (Nat.not_lt.2 h)), unpack_eq_ofNat, unpack_eq_ofNat,
    pow_zero, Nat.div_one]
  rfl

/-! ### `ENC_STD` (R121) -/

theorem encStd_violates_iff : encStd p = .contractViolation .priority ↔ 8 ≤ p.prio.toNat := by
  simp [encStd]

theorem encStd_of_lt (h : p.prio.toNat < 8) : encStd p = .ok { noData with raw := BitVec.ofNat 32 (stdNat p) } := by
  have hpack : packStd p.prio p.sa = BitVec.ofNat 32 (stdNat p) := by
    rw [stdNat, ← packStd_toNat _ _ h, BitVec.ofNat_toNat, BitVec.setWidth_eq]
  rw [encStd, if_neg (Nat.not_le.2 h), hpack]
  rfl

theorem stdNat_lt (h : p.prio.toNat < 8) : stdNat p < 2 ^ 11 := by
  have hsa := p.sa.isLt
  unfold stdNat
  omega

/-! ### `DEC_EXT` (R122) -/

theorem decExt_violates_iff : decExt p = .contractViolation .priority ↔ 8 ≤ (p.raw >>> 26).toNat := by
  simp [decExt]

/-- The tag of the format byte `raw[23:16]` (R101) in numbers. -/
theorem pgnTag_unpack (v : Word) : pgnTag (unpack v 23 16) = if 240 ≤ v.toNat / 2 ^ 16 % 256 then 1#1 else 0#1 := by
  have hformat : (unpack v 23 16).toNat = v.toNat / 2 ^ 16 % 256 := unpack_toNat v 23 16
  simp [pgnTag, isBroadcast, hformat]

theorem decExt_of_le (h : p.raw.toNat ≤ 0x1FFFFFFF) : decExt p = .ok (extFields p.raw.toNat) := by
  rw [decExt, if_neg (mt (extended_priority_fails_iff p.raw).1 (Nat.not_lt.2 h)), pgnTag_unpack]
  simp only [unpack_eq_ofNat, pow_zero, Nat.div_one]
  rfl

/-! ### `ENC_EXT` (R123) -/

theorem encExt_violates_iff : encExt p = .contractViolation .priority ↔ 8 ≤ p.prio.toNat := by
  simp [encExt]

theorem encExt_of_lt (h : p.prio.toNat < 8) : encExt p = .ok { noData with raw := BitVec.ofNat 32 (extNat p) } := by
  have hpack : packExt p.prio p.edp p.dp p.pf p.ps p.sa = BitVec.ofNat 32 (extNat p) := by
    rw [extNat, ← packExt_toNat _ _ _ _ _ _ h, BitVec.ofNat_toNat, BitVec.setWidth_eq]
  rw [encExt, if_neg (Nat.not_le.2 h), hpack]
  rfl

/-- The part of the identifier below the priority is the PGN's 18 bits above the source address (R51). -/
theorem extNat_eq (p : InPorts) : extNat p = p.prio.toNat * 2 ^ 26 + pgnNat p * 2 ^ 8 + p.sa.toNat := by
  unfold extNat pgnNat
  omega

theorem extNat_lt (h : p.prio.toNat < 8) : extNat p < 2 ^ 29 := by
  have hpgn := pgnNat_lt p
  have hsa := p.sa.isLt
  rw [extNat_eq]
  omega

end

/-! ### The obligations -/

/-- Settles O7: the result of `decStd` on either side of 0x7FF, where the priority assertion turns. -/
theorem decStdSplitsAnElevenBitIdentifier : Obligations.DecStdSplitsAnElevenBitIdentifier := fun w =>
  ⟨decode_byte (.decStd w), fun _ hfault hle => exec_of_ok hfault (decStd_of_le hle),
    fun s hfault hgt => exec_of_contractViolation (c := .priority) hfault
      (decStd_violates_iff.2 ((standard_priority_fails_iff s.inPorts.raw).2 hgt)),
    answersFaulted_all _⟩

/-- Settles O8: the result of `encStd` on either side of priority 8; below it the OR of the two fields is their sum. -/
theorem encStdJoinsAnElevenBitIdentifier : Obligations.EncStdJoinsAnElevenBitIdentifier := fun w =>
  ⟨decode_byte (.encStd w), fun _ hfault hlt => ⟨exec_of_ok hfault (encStd_of_lt hlt), stdNat_lt hlt⟩,
    fun _ hfault hge => exec_of_contractViolation (c := .priority) hfault (encStd_violates_iff.2 hge),
    answersFaulted_all _⟩

/-- Settles O9: the result of `decExt` on either side of 0x1FFFFFFF, where the priority assertion turns. -/
theorem decExtSplitsATwentyNineBitIdentifier : Obligations.DecExtSplitsATwentyNineBitIdentifier := fun w =>
  ⟨decode_byte (.decExt w), fun _ hfault hle => exec_of_ok hfault (decExt_of_le hle),
    fun s hfault hgt => exec_of_contractViolation (c := .priority) hfault
      (decExt_violates_iff.2 ((extended_priority_fails_iff s.inPorts.raw).2 hgt)),
    answersFaulted_all _⟩

/-- Settles O10: the result of `encExt` on either side of priority 8; below it the OR of the six fields is their sum. -/
theorem encExtJoinsATwentyNineBitIdentifier : Obligations.EncExtJoinsATwentyNineBitIdentifier := fun w =>
  ⟨decode_byte (.encExt w), fun _ hfault hlt => ⟨exec_of_ok hfault (encExt_of_lt hlt), extNat_lt hlt⟩,
    fun _ hfault hge => exec_of_contractViolation (c := .priority) hfault (encExt_violates_iff.2 hge),
    answersFaulted_all _⟩

/-- Settles O11: a command ends in the violation exactly when its own rule raises it, and the test of the rule is the
shift; the bound and the slice are the same number in two other forms. -/
theorem priorityAssertionFailsExactlyAboveSeven : Obligations.PriorityAssertionFailsExactlyAboveSeven := by
  intro w s hfault
  have violates_iff (i : Instr) := exec_eq_violated_iff (i := i) (c := .priority) hfault
  have hstd := standard_priority_fails_iff s.inPorts.raw
  have hext := extended_priority_fails_iff s.inPorts.raw
  exact ⟨(violates_iff (.encStd w)).trans encStd_violates_iff, (violates_iff (.encExt w)).trans encExt_violates_iff,
    (violates_iff (.decStd w)).trans decStd_violates_iff, (violates_iff (.decExt w)).trans decExt_violates_iff,
    two_pow_le_iff_extractLsb_top_ne_zero (hi := 7) s.inPorts.prio (lo := 3) (by decide),
    hstd, hstd.trans (two_pow_le_iff_extractLsb_top_ne_zero (hi := 31) s.inPorts.raw (lo := 11) (by decide)),
    hext, hext.trans (two_pow_le_iff_extractLsb_top_ne_zero (hi := 31) s.inPorts.raw (lo := 29) (by decide))⟩

end Sys2Proof.Proofs

/-! # Proofs about the exceptions (spec/60_exceptions.md)

The five outcomes (R140), the faulted state (R144, R147, R148), every cause of a violation and of a RangeError (R141, R142)
and the order of checks (R146). First the completion of a command in the words of the statements, and its inversion by the
status it shows; then the causes, command by command; then the result of a request by the numbers of its byte. -/

namespace Sys2Proof.Proofs

open Sys2Proof Sys2Proof.Machine Sys2Proof.SpecSide

/-! ### The answer to a request (R140, R144) -/

/-- A presented request completes on the accepted state with the result it ends in. -/
theorem step_presents {s : State} {q : Request} {rest : List HostEvent} (h : presents s q rest) :
    step s = .next (complete (requestResult q) (accepted q.ports rest s)) :=
  step_request h.1 h.2

theorem step_of_faulted {s : State} {q : Request} {rest : List HostEvent} (h : presents s q rest)
    (hfault : s.fault = 1#1) : step s = .next (answered .faulted noData (accepted q.ports rest s)) := by
  rw [step_presents h, complete_of_faulted _ (by exact hfault)]
  rfl

/-- Settles O35: a completion looks at `FAULT` before it looks at the result, whether the result is a command's own or
that of a reserved byte. -/
theorem faultedBlockAnswersFaulted : Obligations.FaultedBlockAnswersFaulted :=
  ⟨answersFaulted_all, fun _ _ _ => step_of_faulted, fun _ => rfl⟩

/-- R45: `FCAUSE` takes 1 or 2. -/
theorem causeCode_eq_one_or_two (c : Cause) : causeCode c = 1#2 ∨ causeCode c = 2#2 := by
  cases c <;> decide

/-- The five cases of a completion are the five outcomes (R140). -/
theorem complete_endsInOneOutcome (q : Result) (s : State) : endsInOneOutcome s (complete q s) := by
  obtain ⟨hfault, ht⟩ | ⟨hfault, ⟨o, -, ht⟩ | ⟨-, ht⟩ | ⟨c, -, ht⟩ | ⟨-, ht⟩⟩ := complete_cases q s <;>
    rw [ht] <;> refine ⟨_, rfl, ?_⟩
  · exact .inr (.inr (.inr (.inr ⟨rfl, rfl, hfault, rfl, rfl⟩)))
  · exact .inl ⟨rfl, rfl, hfault, rfl⟩
  · exact .inr (.inl ⟨rfl, rfl, hfault, rfl, rfl⟩)
  · exact .inr (.inr (.inl ⟨rfl, rfl, hfault, rfl, rfl, causeCode_eq_one_or_two c, rfl⟩))
  · exact .inr (.inr (.inr (.inl ⟨rfl, rfl, hfault, rfl, rfl⟩)))

/-- Settles O36: a command and a request both end in a completion, and its five cases are the five outcomes. -/
theorem everyCommandIsAnsweredOnce : Obligations.EveryCommandIsAnsweredOnce :=
  ⟨fun i s => ⟨_, exec_eq_complete i s, complete_endsInOneOutcome _ s⟩,
    fun _ _ _ h => ⟨_, step_presents h, complete_endsInOneOutcome _ _⟩⟩

/-! ### What a status says of the command that shows it -/

section
variable {i : Instr} {s t : State} {r : Response}

theorem exec_of_status_contractViolation (ht : exec i s = .next t) (hr : t.rsp = some r)
    (hst : r.status = .contractViolation) :
    s.fault = 0#1 ∧ ∃ c, resultOf i s.inPorts = .contractViolation c ∧ t = violated (causeCode c) s := by
  obtain ⟨-, h⟩ | ⟨hfault, ⟨o, -, h⟩ | ⟨-, h⟩ | ⟨c, hc, h⟩ | ⟨-, h⟩⟩ := complete_cases (resultOf i s.inPorts) s <;>
    rw [← exec_next ht] at h <;> subst h <;> cases hr <;> cases hst
  exact ⟨hfault, c, hc, rfl⟩

theorem exec_of_status_rangeError (ht : exec i s = .next t) (hr : t.rsp = some r) (hst : r.status = .rangeError) :
    s.fault = 0#1 ∧ resultOf i s.inPorts = .rangeError ∧ t = answered .rangeError noData s := by
  obtain ⟨-, h⟩ | ⟨hfault, ⟨o, -, h⟩ | ⟨hresult, h⟩ | ⟨c, -, h⟩ | ⟨-, h⟩⟩ := complete_cases (resultOf i s.inPorts) s <;>
    rw [← exec_next ht] at h <;> subst h <;> cases hr <;> cases hst
  exact ⟨hfault, hresult, rfl⟩

end

/-- Settles O37: the status is shown by a completion with a violation alone, whose next state is `violated` with the code
of its cause; that state is faulted, so every command after it is answered `FAULTED`. -/
theorem violationEntersTheFaultedState : Obligations.ViolationEntersTheFaultedState := by
  intro i s t r ht hr hst
  obtain ⟨-, c, -, rfl⟩ := exec_of_status_contractViolation ht hr hst
  exact ⟨causeCode c, causeCode_eq_one_or_two c, rfl, rfl, rfl, rfl, fun j => answersFaulted_all j _ rfl⟩

/-- `exec_eq_violated_iff` without its premise: a faulted block does not violate. -/
theorem exec_eq_violated_iff_unfaulted {i : Instr} {s : State} {c : Cause} :
    exec i s = .next (violated (causeCode c) s) ↔ s.fault = 0#1 ∧ resultOf i s.inPorts = .contractViolation c := by
  refine ⟨fun h => ?forward, fun ⟨hfault, h⟩ => exec_of_contractViolation hfault h⟩
  obtain ⟨hfault, -⟩ := exec_of_status_contractViolation h rfl rfl
  exact ⟨hfault, (exec_eq_violated_iff hfault).1 h⟩

theorem exec_eq_rangeError_iff_unfaulted {i : Instr} {s : State} :
    exec i s = .next (answered .rangeError noData s) ↔ s.fault = 0#1 ∧ resultOf i s.inPorts = .rangeError := by
  refine ⟨fun h => ?forward, fun ⟨hfault, h⟩ => exec_of_rangeError hfault h⟩
  obtain ⟨hfault, hresult, -⟩ := exec_of_status_rangeError h rfl rfl
  exact ⟨hfault, hresult⟩

/-! ### The causes, command by command (R141, R142)

The port table (R47) leaves few commands for each status; for those the rule's own test is the cause. -/

theorem sigEnc_violates_iff {cfg : Config} {w : Width} {p : InPorts} {c : Cause} :
    sigEnc cfg w p = .contractViolation c ↔
      c = .valueRange ∧ p.cls = 0#3 ∧ (cfg.sigtab w).vHi < p.val.toNat := by
  constructor
  · intro h
    unfold sigEnc at h
    split at h
    · cases h
    next hvalue =>
      split at h
      next hgt =>
        cases h
        exact ⟨rfl, eq_zero_of_classOfCode_value hvalue, hgt⟩
      · cases h
    · cases h
  · rintro ⟨rfl, hcls, hgt⟩
    exact sigEnc_of_value_gt cfg w hcls hgt

theorem sigDec_rangeError_iff {cfg : Config} {w : Width} {p : InPorts} :
    sigDec cfg w p = .rangeError ↔ maxRaw w < p.raw.toNat := by
  simp [sigDec, maxOf, maxRaw]

theorem pgnMkdst_rangeError_iff {p : InPorts} : pgnMkdst p = .rangeError ↔ 240 ≤ p.pf.toNat := by
  simp [pgnMkdst, isBroadcast]

theorem pgnMkbc_rangeError_iff {p : InPorts} : pgnMkbc p = .rangeError ↔ p.pf.toNat < 240 := by
  simp [pgnMkbc, isBroadcast]

theorem mayAnswer_of_contractViolation {i : Instr} {p : InPorts} {c : Cause}
    (h : resultOf i p = .contractViolation c) : mayAnswer i .contractViolation := by
  have hrow := resultOf_tabulated i p
  rw [h] at hrow
  exact hrow

theorem mayAnswer_of_rangeError {i : Instr} {p : InPorts} (h : resultOf i p = .rangeError) :
    mayAnswer i .rangeError := by
  have hrow := resultOf_tabulated i p
  rw [h] at hrow
  exact hrow

/-- The shape of the four rules of the CAN-ID parser: the assertion and its cause (R126). -/
theorem assertion_violates {fails : Prop} [Decidable fails] {o : OutPorts} {c : Cause}
    (h : (if fails then Result.contractViolation .priority else .ok o) = .contractViolation c) :
    c = .priority ∧ fails := by
  split at h
  next hfails =>
    cases h
    exact ⟨rfl, hfails⟩
  · cases h

/-- R141's table: the commands of each cause, and the ports that raise it. -/
theorem resultOf_contractViolation_iff {i : Instr} {p : InPorts} {c : Cause} :
    resultOf i p = .contractViolation c ↔
      (c = .priority ∧ ∃ x : Nibble,
        ((i = .encStd x ∨ i = .encExt x) ∧ 8 ≤ p.prio.toNat) ∨
        (i = .decStd x ∧ 0x7FF < p.raw.toNat) ∨ (i = .decExt x ∧ 0x1FFFFFFF < p.raw.toNat)) ∨
      (c = .valueRange ∧ ∃ w : Width, i = sigEncOf w ∧ p.cls = 0#3 ∧ (chip.sigtab w).vHi < p.val.toNat) := by
  constructor
  · intro h
    have hrow := mayAnswer_of_contractViolation h
    cases i using instr_by_operation with
    | encStd x =>
      obtain ⟨hc, hprio⟩ := assertion_violates h
      exact .inl ⟨hc, x, .inl ⟨.inl rfl, hprio⟩⟩
    | encExt x =>
      obtain ⟨hc, hprio⟩ := assertion_violates h
      exact .inl ⟨hc, x, .inl ⟨.inr rfl, hprio⟩⟩
    | decStd x =>
      obtain ⟨hc, hprio⟩ := assertion_violates h
      exact .inl ⟨hc, x, .inr (.inl ⟨rfl, (standard_priority_fails_iff p.raw).1 hprio⟩)⟩
    | decExt x =>
      obtain ⟨hc, hprio⟩ := assertion_violates h
      exact .inl ⟨hc, x, .inr (.inr ⟨rfl, (extended_priority_fails_iff p.raw).1 hprio⟩)⟩
    | pgnBits x | pgnDa x | pgnGe x | pgnMkdst x | pgnMkbc x => cases hrow
    | sigDec w => cases (mayAnswer_sigDecOf w _).1 hrow
    | sigEnc w =>
      rw [resultOf_sigEncOf] at h
      obtain ⟨hc, hvalue⟩ := sigEnc_violates_iff.1 h
      exact .inr ⟨hc, w, rfl, hvalue⟩
  · rintro (⟨rfl, x, ⟨rfl | rfl, h⟩ | ⟨rfl, h⟩ | ⟨rfl, h⟩⟩ | ⟨rfl, w, rfl, h⟩)
    · exact encStd_violates_iff.2 h
    · exact encExt_violates_iff.2 h
    · exact decStd_violates_iff.2 ((standard_priority_fails_iff p.raw).2 h)
    · exact decExt_violates_iff.2 ((extended_priority_fails_iff p.raw).2 h)
    · rw [resultOf_sigEncOf]
      exact sigEnc_violates_iff.2 ⟨rfl, h⟩

/-- R142's table: the commands that end in a RangeError, and the ports that raise it. -/
theorem resultOf_rangeError_iff {i : Instr} {p : InPorts} :
    resultOf i p = .rangeError ↔
      (∃ w : Width, i = sigDecOf w ∧ maxRaw w < p.raw.toNat) ∨
      (∃ x : Nibble, i = .pgnMkdst x ∧ 240 ≤ p.pf.toNat) ∨ (∃ x : Nibble, i = .pgnMkbc x ∧ p.pf.toNat < 240) := by
  constructor
  · intro h
    have hrow := mayAnswer_of_rangeError h
    cases i using instr_by_operation with
    | sigDec w =>
      rw [resultOf_sigDecOf] at h
      exact .inl ⟨w, rfl, sigDec_rangeError_iff.1 h⟩
    | pgnMkdst x => exact .inr (.inl ⟨x, rfl, pgnMkdst_rangeError_iff.1 h⟩)
    | pgnMkbc x => exact .inr (.inr ⟨x, rfl, pgnMkbc_rangeError_iff.1 h⟩)
    | encStd x | encExt x | decStd x | decExt x | pgnBits x | pgnDa x | pgnGe x => cases hrow
    | sigEnc w => rcases (mayAnswer_sigEncOf w _).1 hrow with hst | hst <;> cases hst
  · rintro (⟨w, rfl, h⟩ | ⟨x, rfl, h⟩ | ⟨x, rfl, h⟩)
    · rw [resultOf_sigDecOf]
      exact sigDec_rangeError_iff.2 h
    · exact pgnMkdst_rangeError_iff.2 h
    · exact pgnMkbc_rangeError_iff.2 h

/-- Settles O38: a command violates exactly when the block is not faulted and the command's own rule raises the cause, and
there are two causes. -/
theorem violationCausesAreTheseAlone : Obligations.ViolationCausesAreTheseAlone := by
  intro i s
  refine ⟨(exec_eq_violated_iff_unfaulted (c := .priority)).trans (and_congr_right' ?priority),
    (exec_eq_violated_iff_unfaulted (c := .valueRange)).trans (and_congr_right' ?valueRange),
    fun t r ht hr hst => ?noOther⟩
  case priority => simp [resultOf_contractViolation_iff]
  case valueRange => simp [resultOf_contractViolation_iff]
  obtain ⟨-, c, -, rfl⟩ := exec_of_status_contractViolation ht hr hst
  cases c with
  | priority => exact .inl ht
  | valueRange => exact .inr ht

/-- Settles O39: a command ends in the status exactly when the block is not faulted and the command's own rule ends in a
RangeError, and then the completion adds the response alone. -/
theorem rangeErrorCausesAreTheseAlone : Obligations.RangeErrorCausesAreTheseAlone := by
  refine fun i s => ⟨exec_eq_rangeError_iff_unfaulted.trans (and_congr_right' resultOf_rangeError_iff),
    fun t r ht hr hst => ?status⟩
  obtain ⟨-, -, rfl⟩ := exec_of_status_rangeError ht hr hst
  exact ⟨rfl, rfl⟩

/-! ### Leaving the faulted state (R148) -/

theorem complete_latch_of_faulted (q : Result) {s : State} (hfault : s.fault = 1#1) :
    (complete q s).fault = 1#1 ∧ (complete q s).fcause = s.fcause := by
  rw [complete_of_faulted q hfault]
  exact ⟨hfault, rfl⟩

/-- Settles O40: a completion keeps the latch of a faulted block, and so does an idle step; of the other events of a step
the power-up is excluded, and the two with a reset clear the latch. -/
theorem onlyResetLeavesTheFaultedState : Obligations.OnlyResetLeavesTheFaultedState := by
  refine ⟨fun i s hfault => ⟨_, exec_eq_complete i s, complete_latch_of_faulted _ hfault⟩,
    fun s t _ hpower ht hfault hchange => ?leaves⟩
  obtain ⟨-, rfl⟩ | ⟨q, rest, -, -, rfl⟩ | ⟨rest, hhost, rfl⟩ | ⟨q, rest, hhost, -, rfl⟩ | ⟨f, c, rest, hhost, -⟩ :=
    step_cases ht
  · exact absurd ⟨hfault, rfl⟩ hchange
  · exact absurd (complete_latch_of_faulted _ (s := accepted q.ports rest s) hfault) hchange
  · exact ⟨rest, .inl hhost, rfl, rfl⟩
  · exact ⟨rest, .inr ⟨q, hhost⟩, rfl, rfl⟩
  · exact absurd hhost (hpower f c rest)

/-! ### The nibbles of a legal byte (R40 to R42) -/

theorem wselOfWidth_of_widthOfWsel {wsel : Nibble} {w : Width} (h : widthOfWsel wsel = some w) : wselOfWidth w = wsel := by
  revert wsel
  cases w <;> decide

theorem wselOfWidth_lt (w : Width) : (wselOfWidth w).toNat < 9 := by
  cases w <;> decide

/-- The statements find the width of a `WSEL` by its place in R42. -/
theorem allWidths_wselOfWidth (w : Width) : allWidths[(wselOfWidth w).toNat]?.getD .w32 = w := by
  cases w <;> rfl

theorem opOf_sigDecOf (w : Width) : opOf (sigDecOf w) = 0xA#4 := by
  cases w <;> rfl

theorem opOf_sigEncOf (w : Width) : opOf (sigEncOf w) = 0xB#4 := by
  cases w <;> rfl

theorem wselOf_sigDecOf (w : Width) : wselOf (sigDecOf w) = wselOfWidth w := by
  cases w <;> rfl

theorem wselOf_sigEncOf (w : Width) : wselOf (sigEncOf w) = wselOfWidth w := by
  cases w <;> rfl

theorem decodeSignal_ok {b : Byte} {make : Width → Instr} {i : Instr} (h : decodeSignal b make = .ok i) :
    ∃ w, i = make w ∧ cmdWsel b = wselOfWidth w := by
  unfold decodeSignal at h
  split at h
  next w hw =>
    cases h
    exact ⟨w, rfl, (wselOfWidth_of_widthOfWsel hw).symm⟩
  · cases h

/-- The two nibbles of a legal byte are those of its command. -/
theorem nibbles_of_decode {b : Byte} {i : Instr} (h : decode b = .ok i) : cmdOp b = opOf i ∧ cmdWsel b = wselOf i := by
  unfold decode at h
  split at h
  case h_10 hop =>
    obtain ⟨w, rfl, hw⟩ := decodeSignal_ok h
    exact ⟨(BitVec.eq_of_toNat_eq hop).trans (opOf_sigDecOf w).symm, hw.trans (wselOf_sigDecOf w).symm⟩
  case h_11 hop =>
    obtain ⟨w, rfl, hw⟩ := decodeSignal_ok h
    exact ⟨(BitVec.eq_of_toNat_eq hop).trans (opOf_sigEncOf w).symm, hw.trans (wselOf_sigEncOf w).symm⟩
  all_goals cases h
  all_goals next hop => exact ⟨BitVec.eq_of_toNat_eq hop, rfl⟩

/-! ### The order of checks (R146) -/

/-- The result R146 gives a request on a block that is not faulted, by `op = cmd / 16` and `ws = cmd % 16`: the first check
that applies decides. -/
noncomputable def orderedResult (op ws : Nat) (p : InPorts) : Result :=
  open scoped Classical in
  if reservedCode op ws p then .illegalCmd
  else if priorityFails op p then .contractViolation .priority
  else if valueFails op ws p then .contractViolation .valueRange
  else if rangeFails op ws p then .rangeError
  else .ok (okData op ws p)

section
variable {op ws : Nat} {p : InPorts}

theorem orderedResult_of_reservedCode (h : reservedCode op ws p) : orderedResult op ws p = .illegalCmd :=
  if_pos h

theorem orderedResult_of_priorityFails (hcode : ¬ reservedCode op ws p) (h : priorityFails op p) :
    orderedResult op ws p = .contractViolation .priority := by
  rw [orderedResult, if_neg hcode, if_pos h]

theorem orderedResult_of_valueFails (hcode : ¬ reservedCode op ws p) (h : valueFails op ws p) :
    orderedResult op ws p = .contractViolation .valueRange := by
  have hprio : ¬ priorityFails op p := by
    unfold priorityFails
    unfold valueFails at h
    omega
  rw [orderedResult, if_neg hcode, if_neg hprio, if_pos h]

theorem orderedResult_of_rangeFails (hcode : ¬ reservedCode op ws p) (h : rangeFails op ws p) :
    orderedResult op ws p = .rangeError := by
  have hprio : ¬ priorityFails op p := by
    unfold priorityFails
    unfold rangeFails at h
    omega
  have hvalue : ¬ valueFails op ws p := by
    unfold valueFails
    unfold rangeFails at h
    omega
  rw [orderedResult, if_neg hcode, if_neg hprio, if_neg hvalue, if_pos h]

theorem orderedResult_of_noCheck (hcode : ¬ reservedCode op ws p) (hprio : ¬ priorityFails op p)
    (hvalue : ¬ valueFails op ws p) (hrange : ¬ rangeFails op ws p) :
    orderedResult op ws p = .ok (okData op ws p) := by
  rw [orderedResult, if_neg hcode, if_neg hprio, if_neg hvalue, if_neg hrange]

end

/-! Each operation's rule is R146 at its `OP`, where the checks of the other operations are false. -/

section
variable (ws : Nat) (p : InPorts)

theorem decStd_ordered : decStd p = orderedResult 1 ws p := by
  rcases Nat.lt_or_ge 0x7FF p.raw.toNat with h | h
  · rw [decStd_violates_iff.2 ((standard_priority_fails_iff p.raw).2 h)]
    simp [orderedResult, reservedCode, priorityFails, h]
  · rw [decStd_of_le h]
    simp [orderedResult, reservedCode, priorityFails, valueFails, rangeFails, okData, h]

theorem encStd_ordered : encStd p = orderedResult 2 ws p := by
  rcases Nat.lt_or_ge p.prio.toNat 8 with h | h
  · rw [encStd_of_lt h]
    simp [orderedResult, reservedCode, priorityFails, valueFails, rangeFails, okData, h]
  · rw [encStd_violates_iff.2 h]
    simp [orderedResult, reservedCode, priorityFails, h]

theorem decExt_ordered : decExt p = orderedResult 3 ws p := by
  rcases Nat.lt_or_ge 0x1FFFFFFF p.raw.toNat with h | h
  · rw [decExt_violates_iff.2 ((extended_priority_fails_iff p.raw).2 h)]
    simp [orderedResult, reservedCode, priorityFails, h]
  · rw [decExt_of_le h]
    simp [orderedResult, reservedCode, priorityFails, valueFails, rangeFails, okData, h]

theorem encExt_ordered : encExt p = orderedResult 4 ws p := by
  rcases Nat.lt_or_ge p.prio.toNat 8 with h | h
  · rw [encExt_of_lt h]
    simp [orderedResult, reservedCode, priorityFails, valueFails, rangeFails, okData, h]
  · rw [encExt_violates_iff.2 h]
    simp [orderedResult, reservedCode, priorityFails, h]

theorem pgnBits_ordered : pgnBits p = orderedResult 5 ws p := by
  rw [pgnBits_eq]
  simp [orderedResult, reservedCode, priorityFails, valueFails, rangeFails, okData]

theorem pgnDa_ordered : pgnDa p = orderedResult 6 ws p := by
  rcases Nat.lt_or_ge p.pf.toNat 240 with h | h
  · rw [pgnDa_of_lt h]
    simp [orderedResult, reservedCode, priorityFails, valueFails, rangeFails, okData, h]
  · rw [pgnDa_of_le h]
    simp [orderedResult, reservedCode, priorityFails, valueFails, rangeFails, okData, Nat.not_lt.2 h]

theorem pgnGe_ordered : pgnGe p = orderedResult 7 ws p := by
  rcases Nat.lt_or_ge p.pf.toNat 240 with h | h
  · rw [pgnGe_of_lt h]
    simp [orderedResult, reservedCode, priorityFails, valueFails, rangeFails, okData, Nat.not_le.2 h]
  · rw [pgnGe_of_le h]
    simp [orderedResult, reservedCode, priorityFails, valueFails, rangeFails, okData, h]

theorem pgnMkdst_ordered : pgnMkdst p = orderedResult 8 ws p := by
  rcases Nat.lt_or_ge p.pf.toNat 240 with h | h
  · rw [pgnMkdst_of_lt h]
    simp [orderedResult, reservedCode, priorityFails, valueFails, rangeFails, okData, h]
  · rw [pgnMkdst_of_le h]
    simp [orderedResult, reservedCode, priorityFails, valueFails, rangeFails, h]

theorem pgnMkbc_ordered : pgnMkbc p = orderedResult 9 ws p := by
  rcases Nat.lt_or_ge p.pf.toNat 240 with h | h
  · rw [pgnMkbc_of_lt h]
    simp [orderedResult, reservedCode, priorityFails, valueFails, rangeFails, h]
  · rw [pgnMkbc_of_le h]
    simp [orderedResult, reservedCode, priorityFails, valueFails, rangeFails, okData, h]

end

theorem sigDec_ordered (w : Width) (p : InPorts) : sigDec chip w p = orderedResult 10 (wselOfWidth w).toNat p := by
  have hwsel := Nat.not_le.2 (wselOfWidth_lt w)
  rcases Nat.lt_or_ge (maxRaw w) p.raw.toNat with h | h
  · rw [sigDec_of_gt chip h]
    simp [orderedResult, reservedCode, priorityFails, valueFails, rangeFails, hwsel, allWidths_wselOfWidth, h]
  · rw [sigDec_of_le chip h]
    simp [orderedResult, reservedCode, priorityFails, valueFails, rangeFails, okData, hwsel, allWidths_wselOfWidth,
      Nat.not_lt.2 h]

theorem sigEnc_ordered (w : Width) (p : InPorts) : sigEnc chip w p = orderedResult 11 (wselOfWidth w).toNat p := by
  have hwsel := Nat.not_le.2 (wselOfWidth_lt w)
  obtain hcls | ⟨hlo, hhi⟩ | hcls : p.cls = 0#3 ∨ (1 ≤ p.cls.toNat ∧ p.cls.toNat ≤ 4) ∨ 5 ≤ p.cls.toNat := by
    rw [← BitVec.toNat_inj]
    simp only [BitVec.toNat_ofNat]
    omega
  · rcases Nat.lt_or_ge (chip.sigtab w).vHi p.val.toNat with h | h
    · rw [sigEnc_of_value_gt chip w hcls h]
      simp [orderedResult, reservedCode, priorityFails, valueFails, hwsel, allWidths_wselOfWidth, hcls, h]
    · rw [sigEnc_of_value_le chip w hcls h]
      simp [orderedResult, reservedCode, priorityFails, valueFails, rangeFails, okData, signalRaw, hwsel,
        allWidths_wselOfWidth, hcls, Nat.not_lt.2 h]
  · rw [sigEnc_of_sentinel chip w hlo hhi]
    have hvalue : p.cls.toNat ≠ 0 := Nat.ne_of_gt hlo
    simp [orderedResult, reservedCode, priorityFails, valueFails, rangeFails, okData, signalRaw, hwsel,
      allWidths_wselOfWidth, hvalue, Nat.not_le.2 (Nat.lt_succ_of_le hhi)]
  · rw [sigEnc, classOfCode_eq_none hcls]
    simp [orderedResult, reservedCode, hcls]

theorem resultOf_ordered (i : Instr) (p : InPorts) :
    resultOf i p = orderedResult (opOf i).toNat (wselOf i).toNat p := by
  cases i using instr_by_operation with
  | decStd x => exact decStd_ordered _ p
  | encStd x => exact encStd_ordered _ p
  | decExt x => exact decExt_ordered _ p
  | encExt x => exact encExt_ordered _ p
  | pgnBits x => exact pgnBits_ordered _ p
  | pgnDa x => exact pgnDa_ordered _ p
  | pgnGe x => exact pgnGe_ordered _ p
  | pgnMkdst x => exact pgnMkdst_ordered _ p
  | pgnMkbc x => exact pgnMkbc_ordered _ p
  | sigDec w => rw [resultOf_sigDecOf, opOf_sigDecOf, wselOf_sigDecOf, sigDec_ordered]; rfl
  | sigEnc w => rw [resultOf_sigEncOf, opOf_sigEncOf, wselOf_sigEncOf, sigEnc_ordered]; rfl

theorem requestResult_ordered (q : Request) :
    requestResult q = orderedResult (q.cmd.toNat / 16) (q.cmd.toNat % 16) q.ports := by
  cases hdecode : decode q.cmd with
  | ok i =>
    obtain ⟨hop, hwsel⟩ := nibbles_of_decode hdecode
    have hresult : requestResult q = resultOf i q.ports := by simp [requestResult, hdecode]
    rw [hresult, resultOf_ordered, ← hop, ← hwsel, cmdOp_toNat, cmdWsel_toNat]
  | error e =>
    have hreserved : reservedCode (q.cmd.toNat / 16) (q.cmd.toNat % 16) q.ports := by
      have hcode := (decode_error_iff q.cmd).1 ⟨e, hdecode⟩
      unfold reservedCode
      omega
    rw [requestResult_of_reserved hdecode, orderedResult_of_reservedCode hreserved]

/-- Settles O34: the result of a request is the one R146 orders, and its completion looks at `FAULT` before it. -/
theorem stepChecksInTheFixedOrder : Obligations.StepChecksInTheFixedOrder := by
  intro s q rest h
  have hstep := step_presents h
  rw [requestResult_ordered] at hstep
  refine ⟨step_of_faulted h, fun hfault hcode => ?reserved, fun hfault hcode hprio => ?priority,
    fun hfault hcode hvalue => ?value, fun hfault hcode hrange => ?range,
    fun hfault hcode hprio hvalue hrange => ?ok⟩ <;>
    have hfault' : (accepted q.ports rest s).fault = 0#1 := hfault
  case reserved => rw [hstep, orderedResult_of_reservedCode hcode, complete_illegalCmd hfault']; rfl
  case priority => rw [hstep, orderedResult_of_priorityFails hcode hprio, complete_contractViolation _ hfault']; rfl
  case value => rw [hstep, orderedResult_of_valueFails hcode hvalue, complete_contractViolation _ hfault']; rfl
  case range => rw [hstep, orderedResult_of_rangeFails hcode hrange, complete_rangeError hfault']; rfl
  case ok => rw [hstep, orderedResult_of_noCheck hcode hprio hvalue hrange, complete_ok _ hfault']; rfl

end Sys2Proof.Proofs

/-! # Proofs about reset (spec/70_reset_and_hazards.md)

The step of each event that carries a reset (R170, R176), said once through `applyReset`; then what a reset and a request
do to the latch. -/

namespace Sys2Proof.Proofs

open Sys2Proof Sys2Proof.Machine Sys2Proof.SpecSide

section
variable {s : State} {rest : List HostEvent}

theorem step_of_event {e : HostEvent} (hhost : s.host = e :: rest) : step s = runEvent e (takeEvent rest s) := by
  simp only [step, hhost]

/-- A reset is applied in every state, also before the first one (R170). -/
theorem step_reset (hhost : s.host = .reset :: rest) : step s = .next (applyReset (takeEvent rest s)) :=
  step_of_event hhost

/-- A reset in place of a response: of the request nothing reaches the next state (R176). -/
theorem step_requestThenReset {q : Request} (hreset : s.resetDone = true) (hhost : s.host = .requestThenReset q :: rest) :
    step s = .next (applyReset (takeEvent rest s)) := by
  rw [step_of_event hhost, runEvent, takeEvent_resetDone, if_pos hreset]

end

/-- On a block that has been reset, a further reset writes the latch and the response alone. -/
theorem applyReset_of_resetDone {s : State} (hreset : s.resetDone = true) :
    applyReset s = { s with fault := 0#1, fcause := 0#2, rsp := none } := by
  rw [applyReset, hreset]

/-- Settles O44: both events with a reset end in `applyReset`, whatever the request was and whatever `FAULT` was; a request
completes, and a completion keeps the latch of a faulted block. -/
theorem resetClearsTheLatchAndDropsTheRequest : Obligations.ResetClearsTheLatchAndDropsTheRequest := by
  refine ⟨fun s rest hhost => ?reset, fun s q rest hreset hhost => ?dropped, fun s q rest hrequest hfault => ?request⟩
  case reset => exact step_reset hhost
  case dropped =>
    have hreset' : (takeEvent rest s).resetDone = true := hreset
    rw [step_requestThenReset hreset hhost, applyReset_of_resetDone hreset']
    rfl
  case request =>
    exact ⟨_, step_presents hrequest, complete_latch_of_faulted _ (s := accepted q.ports rest s) hfault⟩

end Sys2Proof.Proofs

/-! # Proofs about the command byte and its table (spec/30_encoding.md section 1)

The decoder and the encoder are inverse on the legal bytes, the rows of the opcode table are the commands they stand
for, and the nine operations that are not signal operations ignore `WSEL` (R40). -/

namespace Sys2Proof.Proofs

open Sys2Proof Sys2Proof.Machine Sys2Proof.SpecSide

/-- Settles O2: the decoder reads back the two nibbles the encoder appends. -/
theorem decodeOfEncodeIsTheInstr : Obligations.DecodeOfEncodeIsTheInstr :=
  fun i _ => decode_encode i

/-! ### Encoding a decoded byte -/

/-- A byte is its `OP` above its `WSEL` (R40). -/
theorem cmdOp_append_cmdWsel (b : Byte) : cmdOp b ++ cmdWsel b = b := by
  apply BitVec.eq_of_toNat_eq
  rw [append_toNat, cmdOp_toNat, cmdWsel_toNat, Nat.div_add_mod]

theorem encode_of_decode {b : Byte} {i : Instr} (h : decode b = .ok i) : encode i = b := by
  obtain ⟨hop, hwsel⟩ := nibbles_of_decode h
  rw [encode, ← hop, ← hwsel, cmdOp_append_cmdWsel]

/-- Settles O3: the nibbles of a legal byte are those of its command, and a byte is its two nibbles. -/
theorem encodeOfDecodeIsTheByte : Obligations.EncodeOfDecodeIsTheByte :=
  fun _ _ => encode_of_decode

/-- Settles O1: the fourteen bytes evaluate. -/
theorem sampleBytesDecodeAsTabulated : Obligations.SampleBytesDecodeAsTabulated := by
  unfold Obligations.SampleBytesDecodeAsTabulated
  decide

/-! ### The rows of the opcode table -/

theorem rowMatches_encode (i : Instr) : rowMatches (rowOf i) (encode i) = true := by
  cases i using instr_by_operation with
  | decStd x => exact Laws.TableRow.decStd x
  | encStd x => exact Laws.TableRow.encStd x
  | decExt x => exact Laws.TableRow.decExt x
  | encExt x => exact Laws.TableRow.encExt x
  | pgnBits x => exact Laws.TableRow.pgnBits x
  | pgnDa x => exact Laws.TableRow.pgnDa x
  | pgnGe x => exact Laws.TableRow.pgnGe x
  | pgnMkdst x => exact Laws.TableRow.pgnMkdst x
  | pgnMkbc x => exact Laws.TableRow.pgnMkbc x
  | sigDec w => cases w <;> decide
  | sigEnc w => cases w <;> decide

/-- A row that masks the high nibble fixes `OP` alone. -/
theorem eq_append_of_rowMatches_high {name : String} {pat b : Byte} {op : Nibble}
    (h : rowMatches ⟨name, pat, 0xF0⟩ b = true) (hpat : pat = op ++ 0#4) : b = op ++ cmdWsel b := by
  have hmask : b &&& 0xF0 = pat := of_decide_eq_true h
  have high_of_mask : ∀ b : Byte, cmdOp (b &&& 0xF0) = cmdOp b := by decide
  rw [← cmdOp_append op 0#4, ← hpat, ← hmask, high_of_mask, cmdOp_append_cmdWsel]

theorem eq_of_rowMatches_full {name : String} {pat b : Byte} (h : rowMatches ⟨name, pat, 0xFF⟩ b = true) :
    b = pat :=
  BitVec.and_allOnes.symm.trans (of_decide_eq_true h)

theorem rowOf_sigDecOf (w : Width) :
    rowOf (sigDecOf w) = ⟨(rowOf (sigDecOf w)).mnemonic, encode (sigDecOf w), 0xFF⟩ := by
  cases w <;> rfl

theorem rowOf_sigEncOf (w : Width) :
    rowOf (sigEncOf w) = ⟨(rowOf (sigEncOf w)).mnemonic, encode (sigEncOf w), 0xFF⟩ := by
  cases w <;> rfl

/-- A byte in a row is the byte of a command of that row: of the row's own operation, with the byte's `WSEL`. -/
theorem exists_encode_of_rowMatches {j : Instr} {b : Byte} (h : rowMatches (rowOf j) b = true) :
    ∃ i, b = encode i ∧ rowOf i = rowOf j := by
  cases j using instr_by_operation with
  | decStd x => exact ⟨.decStd (cmdWsel b), eq_append_of_rowMatches_high (op := 1) h (by decide), rfl⟩
  | encStd x => exact ⟨.encStd (cmdWsel b), eq_append_of_rowMatches_high (op := 2) h (by decide), rfl⟩
  | decExt x => exact ⟨.decExt (cmdWsel b), eq_append_of_rowMatches_high (op := 3) h (by decide), rfl⟩
  | encExt x => exact ⟨.encExt (cmdWsel b), eq_append_of_rowMatches_high (op := 4) h (by decide), rfl⟩
  | pgnBits x => exact ⟨.pgnBits (cmdWsel b), eq_append_of_rowMatches_high (op := 5) h (by decide), rfl⟩
  | pgnDa x => exact ⟨.pgnDa (cmdWsel b), eq_append_of_rowMatches_high (op := 6) h (by decide), rfl⟩
  | pgnGe x => exact ⟨.pgnGe (cmdWsel b), eq_append_of_rowMatches_high (op := 7) h (by decide), rfl⟩
  | pgnMkdst x => exact ⟨.pgnMkdst (cmdWsel b), eq_append_of_rowMatches_high (op := 8) h (by decide), rfl⟩
  | pgnMkbc x => exact ⟨.pgnMkbc (cmdWsel b), eq_append_of_rowMatches_high (op := 9) h (by decide), rfl⟩
  | sigDec w =>
    rw [rowOf_sigDecOf] at h
    exact ⟨sigDecOf w, eq_of_rowMatches_full h, rfl⟩
  | sigEnc w =>
    rw [rowOf_sigEncOf] at h
    exact ⟨sigEncOf w, eq_of_rowMatches_full h, rfl⟩

/-- Settles O4: a command's byte lies in its row, and a byte in a row is the byte of a command of that row, the only
one it decodes to. -/
theorem eachByteLiesInAtMostOneRow : Obligations.EachByteLiesInAtMostOneRow := by
  refine fun b => ⟨⟨fun ⟨i, hi⟩ => ?row, fun ⟨j, hj⟩ => ?legal⟩, fun i j hi hj => ?unique⟩
  case row => exact ⟨i, encode_of_decode hi ▸ rowMatches_encode i⟩
  case legal =>
    obtain ⟨i, rfl, -⟩ := exists_encode_of_rowMatches hj
    exact ⟨i, decode_encode i⟩
  case unique =>
    obtain ⟨k, rfl, hrow⟩ := exists_encode_of_rowMatches hj
    rw [decode_encode] at hi
    cases hi
    exact hrow.symm

/-! ### A request by its byte -/

theorem requestResult_of_decode {q : Request} {i : Instr} (h : decode q.cmd = .ok i) :
    requestResult q = resultOf i q.ports := by
  simp [requestResult, h]

/-- Settles O33: a request and its command complete with the same result on the accepted state. -/
theorem stepRunsTheDecodedCommand : Obligations.StepRunsTheDecodedCommand := by
  intro s q rest i hrequest hdecode _
  rw [step_presents hrequest, requestResult_of_decode hdecode, exec_eq_complete]
  rfl

/-- R40: the rule of an operation that is not a signal operation is R146 at its `OP` for every `WSEL`. -/
theorem orderedResult_wsel_irrelevant {op : Nat} (hlo : 1 ≤ op) (hhi : op ≤ 9) (ws ws' : Nat) (p : InPorts) :
    orderedResult op ws p = orderedResult op ws' p := by
  interval_cases op
  · rw [← decStd_ordered, ← decStd_ordered]
  · rw [← encStd_ordered, ← encStd_ordered]
  · rw [← decExt_ordered, ← decExt_ordered]
  · rw [← encExt_ordered, ← encExt_ordered]
  · rw [← pgnBits_ordered, ← pgnBits_ordered]
  · rw [← pgnDa_ordered, ← pgnDa_ordered]
  · rw [← pgnGe_ordered, ← pgnGe_ordered]
  · rw [← pgnMkdst_ordered, ← pgnMkdst_ordered]
  · rw [← pgnMkbc_ordered, ← pgnMkbc_ordered]

/-- Settles O6: for these operations the result of a request depends on the `OP` of its byte alone, and both requests
leave the same accepted state. -/
theorem wselIgnoredByOtherOperations : Obligations.WselIgnoredByOtherOperations := by
  intro s b c p rest hrequest hlo hhi hop
  have hother : presents { s with host := .request ⟨c, p⟩ :: rest } ⟨c, p⟩ rest := ⟨hrequest.1, rfl⟩
  have hresult : requestResult ⟨b, p⟩ = requestResult ⟨c, p⟩ := by
    rw [requestResult_ordered, requestResult_ordered, hop]
    exact orderedResult_wsel_irrelevant hlo hhi _ _ _
  rw [step_presents hrequest, step_presents hother, hresult]
  rfl

end Sys2Proof.Proofs

/-! # Proofs about the block: its invariant, its latch and its runs (spec/10_state.md, spec/20_memory.md)

What a completion does to the latch and to the response, said once: it changes the latch by a violation alone, it
reads the latch and nothing else of the state, and it may be repeated. From these the invariant, reset, the frame of
the commands and the runs. -/

namespace Sys2Proof.Proofs

open Sys2Proof Sys2Proof.Machine Sys2Proof.SpecSide

/-! ### The invariant of the block (R12, R14, R140) -/

theorem latchOk_iff {s : State} :
    latchOk s = true ↔ (s.resetDone = true → (s.fault = 0#1 ↔ s.fcause = 0#2) ∧ s.fcause ≠ 3#2) := by
  cases hreset : s.resetDone <;> simp [latchOk, hreset]

/-- Where no response stands the invariant is that of the latch. -/
theorem blockOk_of_no_response {s : State} (hrsp : s.rsp = none) (hlatch : latchOk s = true) : blockOk s = true := by
  rw [blockOk, hlatch, responseOk, hrsp]
  rfl

theorem respond_blockOk {st : Status} {out : OutPorts} {s : State} (hreset : s.resetDone = true)
    (hlatch : latchOk s = true) (hdata : st = .ok ∨ out = outDefault) (hcls : out.cls.toNat ≤ 4)
    (hreading : readStatus st = .fault ↔ s.fault = 1#1) : blockOk (respond st out s) = true := by
  have hlatch' : latchOk (respond st out s) = true := hlatch
  simp [blockOk, hlatch', responseOk, hreset, hdata, hcls, hreading]

/-- A violation leaves a consistent latch: `FAULT` is 1 and `FCAUSE` is 1 or 2 (R12, R147). -/
theorem violation_latchOk (c : Cause) (s : State) : latchOk { s with fault := 1#1, fcause := causeCode c } = true := by
  rw [latchOk_iff]
  intro _
  cases c <;> simp [causeCode]

/-- The data of an `OK` result holds a class code of R43: the default's, or the one `SIG_DEC.W` drives. -/
theorem cls_le_of_resultOf_ok {i : Instr} {p : InPorts} {o : OutPorts} (h : resultOf i p = .ok o) :
    o.cls.toNat ≤ 4 := by
  have hrow := resultOf_tabulated i p
  rw [h] at hrow
  cases i using instr_by_operation with
  | decStd x | encStd x | decExt x | encExt x => exact (congrArg (·.cls.toNat) hrow).le
  | pgnBits x | pgnDa x | pgnGe x | pgnMkdst x | pgnMkbc x => exact (congrArg (·.cls.toNat) hrow).le
  | sigDec w =>
    rw [resultOf_sigDecOf, sigDec] at h
    split at h
    · cases h
    · cases h
      exact classCode_le _
  | sigEnc w => exact (congrArg (·.cls.toNat) ((drivesOnly_sigEncOf w o).1 hrow)).le

theorem cls_le_of_requestResult_ok {q : Request} {o : OutPorts} (h : requestResult q = .ok o) : o.cls.toNat ≤ 4 := by
  unfold requestResult at h
  split at h
  · exact cls_le_of_resultOf_ok h
  · cases h

/-- A request is answered in accord with the latch it leaves. -/
theorem complete_request_blockOk (q : Request) {s : State} (hreset : s.resetDone = true) (hlatch : latchOk s = true) :
    blockOk (complete (requestResult q) s) = true := by
  obtain ⟨hfault, ht⟩ | ⟨hfault, ⟨o, ho, ht⟩ | ⟨-, ht⟩ | ⟨c, -, ht⟩ | ⟨-, ht⟩⟩ :=
    complete_cases (requestResult q) s <;> rw [ht]
  · exact respond_blockOk hreset hlatch (.inr rfl) (by decide) (by simp [readStatus, hfault])
  · exact respond_blockOk hreset hlatch (.inl rfl) (cls_le_of_requestResult_ok ho) (by simp [readStatus, hfault])
  · exact respond_blockOk hreset hlatch (.inr rfl) (by decide) (by simp [readStatus, hfault])
  · exact respond_blockOk hreset (violation_latchOk c s) (.inr rfl) (by decide) (by simp [readStatus])
  · exact respond_blockOk hreset hlatch (.inr rfl) (by decide) (by simp [readStatus, hfault])

/-- Settles O41: a request is answered in accord with the latch it leaves; no other event leaves a response, and the
latch it leaves is the one found, cleared, or that of a block not yet reset. -/
theorem stepKeepsTheBlockInvariant : Obligations.StepKeepsTheBlockInvariant := by
  intro s t hs ht
  have hlatch : latchOk s = true := (Bool.and_eq_true_iff.1 hs).1
  obtain ⟨-, rfl⟩ | ⟨q, rest, -, hreset, rfl⟩ | ⟨rest, -, rfl⟩ | ⟨q, rest, -, -, rfl⟩ | ⟨f, c, rest, -, rfl⟩ :=
    step_cases ht
  · exact blockOk_of_no_response rfl hlatch
  · exact complete_request_blockOk q hreset hlatch
  · exact blockOk_of_no_response rfl rfl
  · exact blockOk_of_no_response rfl rfl
  · exact blockOk_of_no_response rfl rfl

/-- Settles O42: no response stands after reset, and both halves of the latch are 0. -/
theorem resetMeetsTheBlockInvariant : Obligations.ResetMeetsTheBlockInvariant :=
  blockOk_of_no_response rfl rfl

/-! ### Who writes the latch (R23, R147) -/

/-- A completion either keeps the latch and does not show a violation, or is the entry into the faulted state. -/
theorem complete_keeps_latch_or_violates (q : Result) (s : State) :
    (∃ r, (complete q s).rsp = some r ∧ r.status ≠ .contractViolation ∧ (complete q s).fault = s.fault ∧
      (complete q s).fcause = s.fcause) ∨
    (s.fault = 0#1 ∧ ∃ c, q = .contractViolation c ∧ complete q s = violated (causeCode c) s) := by
  obtain ⟨-, ht⟩ | ⟨hfault, ⟨o, -, ht⟩ | ⟨-, ht⟩ | ⟨c, hc, ht⟩ | ⟨-, ht⟩⟩ := complete_cases q s
  · rw [ht]; exact .inl ⟨_, rfl, nofun, rfl, rfl⟩
  · rw [ht]; exact .inl ⟨_, rfl, nofun, rfl, rfl⟩
  · rw [ht]; exact .inl ⟨_, rfl, nofun, rfl, rfl⟩
  · exact .inr ⟨hfault, c, hc, ht⟩
  · rw [ht]; exact .inl ⟨_, rfl, nofun, rfl, rfl⟩

theorem complete_violates_of_latch_changed {q : Result} {s : State}
    (h : (complete q s).fault ≠ s.fault ∨ (complete q s).fcause ≠ s.fcause) :
    s.fault = 0#1 ∧ ∃ c, complete q s = violated (causeCode c) s := by
  obtain ⟨-, -, -, hfault, hfcause⟩ | ⟨hfault, c, -, ht⟩ := complete_keeps_latch_or_violates q s
  · exact absurd h (by simp [hfault, hfcause])
  · exact ⟨hfault, c, ht⟩

theorem step_rsp_isSome_iff {s t : State} (h : step s = .next t) :
    t.rsp.isSome = true ↔ ∃ q rest, s.host = .request q :: rest := by
  obtain ⟨hhost, rfl⟩ | ⟨q, rest, hhost, -, rfl⟩ | ⟨rest, hhost, rfl⟩ | ⟨q, rest, hhost, -, rfl⟩ |
    ⟨f, c, rest, hhost, rfl⟩ := step_cases h
  · simp [hhost]
  · simp [hhost, complete_rsp_isSome]
  · simp [hhost]
  · simp [hhost]
  · simp [hhost]

/-- Settles O43: a reset clears both and gives no response; of the other events a request changes the latch by a
violation alone, a power-up sets it, and an idle step keeps it. -/
theorem resetLeavesTheLatchClear : Obligations.ResetLeavesTheLatchClear := by
  refine ⟨by decide, fun s rest hhost => ⟨_, step_reset hhost, rfl, rfl, rfl, rfl, rfl⟩,
    fun s t ht hrsp => (step_rsp_isSome_iff ht).1 hrsp, fun s t ht hchange => ?writers, answersFaulted_all⟩
  obtain ⟨-, rfl⟩ | ⟨q, rest, hhost, -, rfl⟩ | ⟨rest, hhost, rfl⟩ | ⟨q, rest, hhost, -, rfl⟩ |
    ⟨f, c, rest, hhost, rfl⟩ := step_cases ht
  · simp at hchange
  · obtain ⟨hfault, c, hviolated⟩ := complete_violates_of_latch_changed (s := accepted q.ports rest s) hchange
    refine ⟨rest, .inr (.inl ⟨⟨q, hhost⟩, ?_⟩)⟩
    rw [show samplePorts q.ports (takeEvent rest s) = accepted q.ports rest s from rfl, hviolated]
    exact ⟨rfl, hfault, rfl, causeCode_eq_one_or_two c⟩
  · exact ⟨rest, .inl ⟨.inl hhost, rfl, rfl⟩⟩
  · exact ⟨rest, .inl ⟨.inr ⟨q, hhost⟩, rfl, rfl⟩⟩
  · exact ⟨rest, .inr (.inr ⟨f, c, hhost, rfl, rfl⟩)⟩

/-- Settles O51: a command completes, a completion writes the response and the latch alone, and the latch by a
violation. -/
theorem commandsChangeOnlyTheResponseAndTheLatch : Obligations.CommandsChangeOnlyTheResponseAndTheLatch := by
  intro i s t ht
  obtain rfl := exec_next ht
  refine ⟨complete_inPorts _ _, complete_host _ _, complete_resetDone _ _, fun hchange => ?latch⟩
  obtain ⟨-, c, hviolated⟩ := complete_violates_of_latch_changed hchange
  exact ⟨noData, by rw [hviolated]; rfl⟩

/-- Settles O52: each event of a step leaves the events after it, and only the completion of a request gives a
response. -/
theorem stepTakesOneEventOfTheHost : Obligations.StepTakesOneEventOfTheHost := by
  intro s t ht
  refine ⟨?taken, step_rsp_isSome_iff ht, fun hhost => ?idle⟩
  case taken =>
    obtain ⟨hhost, rfl⟩ | ⟨q, rest, hhost, -, rfl⟩ | ⟨rest, hhost, rfl⟩ | ⟨q, rest, hhost, -, rfl⟩ |
      ⟨f, c, rest, hhost, rfl⟩ := step_cases ht <;> simp [hhost]
  case idle =>
    rw [step, hhost] at ht
    exact (Host.Outcome.next.inj ht).symm

/-! ### Events without a meaning (R171, R174) -/

theorem step_powerUp {s : State} {f : Bit} {c : BitVec 2} {rest : List HostEvent}
    (hhost : s.host = .powerUp f c :: rest) :
    step s = .next (powerUp f c (takeEvent rest s)) :=
  step_of_event hhost

theorem step_request_before_reset {s : State} {q : Request} {rest : List HostEvent} (hreset : s.resetDone = false)
    (hhost : s.host = .request q :: rest) : step s = .refused .commandBeforeReset := by
  simp [step_of_event hhost, runEvent, hreset]

theorem step_requestThenReset_before_reset {s : State} {q : Request} {rest : List HostEvent}
    (hreset : s.resetDone = false) (hhost : s.host = .requestThenReset q :: rest) :
    step s = .refused .commandBeforeReset := by
  simp [step_of_event hhost, runEvent, hreset]

/-- Settles O45: a power-up leaves a block that has not been reset, which refuses both kinds of request. -/
theorem commandsWithoutMeaningAreRefused : Obligations.CommandsWithoutMeaningAreRefused :=
  ⟨fun _ _ _ _ hhost => ⟨_, step_powerUp hhost, rfl, rfl, rfl, rfl⟩,
    fun _ _ _ _ _ hhost => ⟨_, step_powerUp hhost, rfl, rfl, step_request_before_reset rfl rfl⟩,
    fun _ _ _ => step_request_before_reset, fun _ _ _ => step_requestThenReset_before_reset, fun _ _ => step_of_event⟩

/-! ### What a completion reads (spec/00_scope.md section 5) -/

section
variable {s t : State}

/-- The response of a completion is a function of the result and of `FAULT`. -/
theorem complete_rsp_congr (q : Result) (hfault : s.fault = t.fault) : (complete q s).rsp = (complete q t).rsp := by
  unfold complete
  rw [hfault]
  split
  · rfl
  · cases q <;> rfl

theorem complete_fault_congr (q : Result) (hfault : s.fault = t.fault) :
    (complete q s).fault = (complete q t).fault := by
  unfold complete
  rw [hfault]
  split
  · exact hfault
  · cases q with
    | contractViolation c => rfl
    | ok o | rangeError | illegalCmd => exact hfault

theorem complete_fcause_congr (q : Result) (hfault : s.fault = t.fault) (hfcause : s.fcause = t.fcause) :
    (complete q s).fcause = (complete q t).fcause := by
  unfold complete
  rw [hfault]
  split
  · exact hfcause
  · cases q with
    | contractViolation c => rfl
    | ok o | rangeError | illegalCmd => exact hfcause

end

/-- Requests with the same byte that agree on the ports its command reads end in the same result. -/
theorem requestResult_congr {q r : Request} (hcmd : q.cmd = r.cmd)
    (hreads : ∀ i, decode q.cmd = .ok i → readsAgree i q.ports r.ports) : requestResult q = requestResult r := by
  unfold requestResult
  rw [← hcmd]
  split
  next i hdecode => exact resultOf_congr (hreads i hdecode)
  · rfl

/-- Settles O46: the two requests end in the same result, and its completion reads the latch alone. -/
theorem responseDependsOnTheRequestAndTheLatchAlone : Obligations.ResponseDependsOnTheRequestAndTheLatchAlone := by
  intro s t q r rest more hq hr hfault hfcause hcmd hreads
  refine ⟨_, _, step_presents hq, step_presents hr, ?_⟩
  rw [requestResult_congr hcmd hreads]
  exact ⟨complete_rsp_congr _ hfault, complete_fault_congr _ hfault, complete_fcause_congr _ hfault hfcause⟩

/-! ### Repeating a command (spec/20_memory.md section 3) -/

/-- Without a violation a completion may be repeated: it writes the response it wrote before. -/
theorem complete_complete {q : Result} {s : State} (h : (complete q s).rsp ≠ some ⟨.contractViolation, noData⟩) :
    complete q (complete q s) = complete q s := by
  obtain ⟨hfault, ht⟩ | ⟨hfault, ⟨o, rfl, ht⟩ | ⟨rfl, ht⟩ | ⟨c, -, ht⟩ | ⟨rfl, ht⟩⟩ := complete_cases q s <;>
    rw [ht] at h ⊢
  · exact complete_of_faulted q (s := respond .faulted outDefault s) hfault
  · exact complete_ok o (s := respond .ok o s) hfault
  · exact complete_rangeError (s := respond .rangeError outDefault s) hfault
  · exact absurd rfl h
  · exact complete_illegalCmd (s := respond .illegalCmd outDefault s) hfault

/-- Settles O48: the sampled ports stay, so the second run completes with the same result. -/
theorem commandsWithoutAViolationAreIdempotent : Obligations.CommandsWithoutAViolationAreIdempotent := by
  intro i s t ht hrsp
  obtain rfl := exec_next ht
  rw [exec_eq_complete, complete_inPorts, complete_complete hrsp]

/-! ### Two requests in either order (spec/20_memory.md section 4) -/

/-- The block after a request is answered. -/
def afterRequest (q : Request) (rest : List HostEvent) (s : State) : State :=
  complete (requestResult q) (accepted q.ports rest s)

section
variable {s : State} {q r : Request}

theorem step_first_of_two (hreset : s.resetDone = true) :
    step { s with host := [.request q, .request r] } = .next (afterRequest q [.request r] s) :=
  step_presents ⟨hreset, rfl⟩

theorem step_second_of_two (hreset : s.resetDone = true) :
    step (afterRequest q [.request r] s) = .next (afterRequest r [] (afterRequest q [.request r] s)) :=
  step_presents ⟨(complete_resetDone _ _).trans hreset, complete_host _ _⟩

theorem runSteps_two_requests (hreset : s.resetDone = true) :
    runSteps 2 { s with host := [.request q, .request r] } =
      .next (afterRequest r [] (afterRequest q [.request r] s)) :=
  (runSteps_succ 1 (step_first_of_two hreset)).trans (runSteps_succ 0 (step_second_of_two hreset))

theorem responses_two_requests (hreset : s.resetDone = true) :
    responses 2 { s with host := [.request q, .request r] } =
      (afterRequest q [.request r] s).rsp.toList ++
        (afterRequest r [] (afterRequest q [.request r] s)).rsp.toList := by
  rw [responses_succ 1 (step_first_of_two hreset), responses_succ 0 (step_second_of_two hreset), responses_zero,
    List.append_nil]

end

/-- A block that is not faulted after a request was not faulted before it (R148). -/
theorem unfaulted_of_afterRequest {s : State} {q : Request} {rest : List HostEvent}
    (h : (afterRequest q rest s).fault = 0#1) : s.fault = 0#1 := by
  rcases fault_zero_or_one s with hs | hs
  · exact hs
  · obtain ⟨hfault, -⟩ := complete_latch_of_faulted (requestResult q) (s := accepted q.ports rest s) hs
    exact absurd hfault (not_faulted h)

/-- A response of a request is a function of the request and of `FAULT`. -/
theorem afterRequest_rsp_congr {s t : State} (q : Request) (rest more : List HostEvent) (hfault : s.fault = t.fault) :
    (afterRequest q rest s).rsp = (afterRequest q more t).rsp :=
  complete_rsp_congr _ hfault

theorem afterRequest_fault_congr {s t : State} (q : Request) (rest more : List HostEvent) (hfault : s.fault = t.fault) :
    (afterRequest q rest s).fault = (afterRequest q more t).fault :=
  complete_fault_congr _ hfault

/-- A request always gives one response. -/
theorem afterRequest_rsp (q : Request) (rest : List HostEvent) (s : State) :
    ∃ a, (afterRequest q rest s).rsp = some a :=
  Option.isSome_iff_exists.1 (complete_rsp_isSome _ _)

/-- Settles O49: since no request faults the block, each completes on an unfaulted block in either order, and the
response reads nothing else of the state. -/
theorem responsesDoNotDependOnTheOrder : Obligations.ResponsesDoNotDependOnTheOrder := by
  intro s q r hreset hfault a b t hresponses hrun ht
  rw [runSteps_two_requests hreset] at hrun
  obtain rfl := Host.Outcome.next.inj hrun
  have hafterQ : (afterRequest q [.request r] s).fault = s.fault := (unfaulted_of_afterRequest ht).trans hfault.symm
  have hafterR : (afterRequest r [.request q] s).fault = s.fault := by
    rw [afterRequest_fault_congr r _ [] hafterQ.symm, ht, hfault]
  obtain ⟨x, hx⟩ := afterRequest_rsp q [.request r] s
  obtain ⟨y, hy⟩ := afterRequest_rsp r [.request q] s
  rw [responses_two_requests hreset, afterRequest_rsp_congr r _ [.request q] hafterQ, hx, hy] at hresponses
  rw [responses_two_requests hreset, afterRequest_rsp_congr q _ [.request r] hafterR, hx, hy]
  cases hresponses
  rfl

/-! ### Faulted runs (R144, R148) -/

/-- Settles O50, by induction on the number of steps: the next event is a request, its answer is `FAULTED`, and the
block after it is again faulted, with the same cause and the events that remain. -/
theorem faultedRunsStayFaulted : Obligations.FaultedRunsStayFaulted := by
  intro n
  induction n with
  | zero => exact fun s hfault _ _ _ => ⟨rfl, s, rfl, hfault, rfl⟩
  | succ n ih =>
    intro s hfault hreset hlength hrequests
    obtain ⟨q, rest, hhost⟩ : ∃ q rest, s.host = .request q :: rest := by
      cases hhost : s.host with
      | nil => simp [hhost] at hlength
      | cons e rest =>
        have he : isRequest e = true := hrequests e (by simp [hhost])
        cases e with
        | request q => exact ⟨q, rest, rfl⟩
        | reset | requestThenReset _ | powerUp _ _ | unstableRequest => cases he
    rw [hhost] at hlength hrequests
    have hstep := step_of_faulted ⟨hreset, hhost⟩ hfault
    obtain ⟨hresponses, hrun⟩ := ih (answered .faulted noData (accepted q.ports rest s)) hfault hreset
      (Nat.le_of_succ_le_succ hlength) (fun e he => hrequests e (List.mem_cons_of_mem _ he))
    rw [responses_succ n hstep, hresponses, runSteps_succ n hstep]
    exact ⟨rfl, hrun⟩

end Sys2Proof.Proofs

/-! # Proofs about identifiers and PGNs together (spec/41_pgn.md, spec/42_identifier.md section 4)

The round trips of the CAN-ID parser, the PGN inside the extended identifier (R51), and the two pairs of PGN
operations of which exactly one applies. First the fields of a number and the number of its fields; then the
obligations. -/

namespace Sys2Proof.Proofs

open Sys2Proof Sys2Proof.Machine Sys2Proof.SpecSide

/-! ### The standard identifier: fields and number (R48) -/

section
variable {s : State} (hfault : s.fault = 0#1)
include hfault

theorem exec_decStd_of_le (w : Nibble) (h : s.inPorts.raw.toNat ≤ 0x7FF) :
    exec (.decStd w) s = .next (answered .ok (stdFields s.inPorts.raw.toNat) s) :=
  exec_of_ok hfault (decStd_of_le h)

theorem exec_encStd_of_lt (w : Nibble) (h : s.inPorts.prio.toNat < 8) :
    exec (.encStd w) s = .next (answered .ok { noData with raw := BitVec.ofNat 32 (stdNat s.inPorts) } s) :=
  exec_of_ok hfault (encStd_of_lt h)

theorem exec_decExt_of_le (w : Nibble) (h : s.inPorts.raw.toNat ≤ 0x1FFFFFFF) :
    exec (.decExt w) s = .next (answered .ok (extFields s.inPorts.raw.toNat) s) :=
  exec_of_ok hfault (decExt_of_le h)

theorem exec_encExt_of_lt (w : Nibble) (h : s.inPorts.prio.toNat < 8) :
    exec (.encExt w) s = .next (answered .ok { noData with raw := BitVec.ofNat 32 (extNat s.inPorts) } s) :=
  exec_of_ok hfault (encExt_of_lt h)

end

theorem setWidth_toNat_lt_eight (x : BitVec 3) : (x.setWidth 8).toNat < 8 := by
  have hx := x.isLt
  rw [BitVec.toNat_setWidth]
  omega

theorem ofNat_toNat_word (v : Word) : BitVec.ofNat 32 v.toNat = v := by
  rw [BitVec.ofNat_toNat, BitVec.setWidth_eq]

theorem ofNat_word_toNat {n : Nat} (h : n < 2 ^ 32) : (BitVec.ofNat 32 n).toNat = n := by
  rw [BitVec.toNat_ofNat, Nat.mod_eq_of_lt h]

theorem ofNat_eq_of_mod_eq {n k : Nat} {x : BitVec n} (h : k % 2 ^ n = x.toNat) : BitVec.ofNat n k = x :=
  BitVec.eq_of_toNat_eq ((BitVec.toNat_ofNat k n).trans h)

/-- An 11-bit number is the number of its own fields. -/
theorem stdNat_of_fields {p : InPorts} {n : Nat} (hn : n < 2 ^ 11) (hprio : p.prio = (stdFields n).prio.setWidth 8)
    (hsa : p.sa = (stdFields n).sa) : stdNat p = n := by
  rw [stdNat, hprio, hsa]
  simp only [stdFields, BitVec.toNat_setWidth, BitVec.toNat_ofNat]
  omega

/-- The number of two fields comes apart into them. -/
theorem stdFields_stdNat (p : InPorts) :
    stdFields (stdNat p) = { noData with prio := p.prio.setWidth 3, sa := p.sa } := by
  have hsa := p.sa.isLt
  have hnat := stdNat.eq_1 p
  have hprio : BitVec.ofNat 3 (stdNat p / 256) = p.prio.setWidth 3 :=
    ofNat_eq_of_mod_eq (by rw [BitVec.toNat_setWidth]; omega)
  have hsa' : BitVec.ofNat 8 (stdNat p) = p.sa := ofNat_eq_of_mod_eq (by omega)
  rw [stdFields, hprio, hsa']

/-- Settles O12: an identifier is the number of its fields, and the number of two fields comes apart into them. -/
theorem standardIdentifierRoundTrips : Obligations.StandardIdentifierRoundTrips := by
  refine fun w v => ⟨fun s hs hraw => ⟨_, _, exec_decStd_of_le hs w hraw, fun t ht hprio hsa => ?encode⟩,
    fun t ht hprio => ⟨BitVec.ofNat 32 (stdNat t.inPorts), ?bound, exec_encStd_of_lt ht v hprio,
      fun s hs hraw => ?decode⟩⟩
  case encode =>
    have hlt : t.inPorts.prio.toNat < 8 := hprio ▸ setWidth_toNat_lt_eight _
    rw [exec_encStd_of_lt ht v hlt, stdNat_of_fields (Nat.lt_succ_of_le hraw) hprio hsa, ofNat_toNat_word]
  all_goals
    have hlt := stdNat_lt hprio
    have hnat := ofNat_word_toNat (n := stdNat t.inPorts) (by omega)
  case bound => omega
  case decode => rw [exec_decStd_of_le hs w (by rw [hraw]; omega), hraw, hnat, stdFields_stdNat]

/-! ### The extended identifier: fields and number (R49, R51) -/

/-- The extended identifier is its priority, the 18 bits of its PGN and its source address (R51). -/
theorem pgnNat_of_extFields {p : InPorts} {n : Nat} (hedp : p.edp = (extFields n).edp) (hdp : p.dp = (extFields n).dp)
    (hpf : p.pf = (extFields n).pf) (hps : p.ps = (extFields n).ps) : pgnNat p = n / 2 ^ 8 % 2 ^ 18 := by
  rw [pgnNat, hedp, hdp, hpf, hps]
  simp only [extFields, BitVec.toNat_ofNat]
  omega

/-- A 29-bit number is the number of its own fields. -/
theorem extNat_of_fields {p : InPorts} {n : Nat} (hn : n < 2 ^ 29) (hprio : p.prio = (extFields n).prio.setWidth 8)
    (hpgn : pgnNat p = n / 2 ^ 8 % 2 ^ 18) (hsa : p.sa = (extFields n).sa) : extNat p = n := by
  rw [extNat_eq, hprio, hpgn, hsa]
  simp only [extFields, BitVec.toNat_setWidth, BitVec.toNat_ofNat]
  omega

/-- The number of six fields comes apart into them, with the tag of the format. -/
theorem extFields_extNat (p : InPorts) :
    extFields (extNat p) =
      { echoed p (if 240 ≤ p.pf.toNat then 1#1 else 0#1) with prio := p.prio.setWidth 3, sa := p.sa } := by
  have hedp := p.edp.isLt
  have hdp := p.dp.isLt
  have hpf := p.pf.isLt
  have hps := p.ps.isLt
  have hsa := p.sa.isLt
  have hnat := extNat.eq_1 p
  have hprio' : BitVec.ofNat 3 (extNat p / 2 ^ 26) = p.prio.setWidth 3 :=
    ofNat_eq_of_mod_eq (by rw [BitVec.toNat_setWidth]; omega)
  have hedp' : BitVec.ofNat 1 (extNat p / 2 ^ 25) = p.edp := ofNat_eq_of_mod_eq (by omega)
  have hdp' : BitVec.ofNat 1 (extNat p / 2 ^ 24) = p.dp := ofNat_eq_of_mod_eq (by omega)
  have hformat : extNat p / 2 ^ 16 % 256 = p.pf.toNat := by omega
  have hpf' : BitVec.ofNat 8 (extNat p / 2 ^ 16) = p.pf := ofNat_eq_of_mod_eq hformat
  have hps' : BitVec.ofNat 8 (extNat p / 2 ^ 8) = p.ps := ofNat_eq_of_mod_eq (by omega)
  have hsa' : BitVec.ofNat 8 (extNat p) = p.sa := ofNat_eq_of_mod_eq (by omega)
  rw [extFields, hprio', hedp', hdp', hformat, hpf', hps', hsa']
  rfl

/-- Settles O13: an identifier is the number of its fields, and the number of six fields comes apart into them. -/
theorem extendedIdentifierRoundTrips : Obligations.ExtendedIdentifierRoundTrips := by
  refine fun w v => ⟨fun s hs hraw => ⟨_, exec_decExt_of_le hs w hraw,
      fun t ht hprio hedp hdp hpf hps hsa => ?encode⟩,
    fun t ht hprio => ⟨BitVec.ofNat 32 (extNat t.inPorts), ?bound, exec_encExt_of_lt ht v hprio,
      fun s hs hraw => ⟨extFields (extNat t.inPorts), ?decode, ?fields⟩⟩⟩
  case encode =>
    have hlt : t.inPorts.prio.toNat < 8 := hprio ▸ setWidth_toNat_lt_eight _
    have hpgn := pgnNat_of_extFields hedp hdp hpf hps
    rw [exec_encExt_of_lt ht v hlt, extNat_of_fields (Nat.lt_succ_of_le hraw) hprio hpgn hsa, ofNat_toNat_word]
  all_goals
    have hlt := extNat_lt hprio
    have hnat := ofNat_word_toNat (n := extNat t.inPorts) (by omega)
  case bound => omega
  case decode => rw [exec_decExt_of_le hs w (by rw [hraw]; omega), hraw, hnat]
  case fields =>
    rw [extFields_extNat]
    exact ⟨rfl, rfl, rfl, rfl, rfl, rfl⟩

/-! ### The PGN inside the identifier (R51) -/

/-- The 18 bits of `raw[25:8]` in numbers. -/
theorem pgn_slice_toNat (v : Word) : ((v.extractLsb 25 8).setWidth 32).toNat = v.toNat / 2 ^ 8 % 2 ^ 18 := by
  simp only [BitVec.toNat_setWidth, BitVec.extractLsb_toNat, Nat.shiftRight_eq_div_pow]
  omega

/-- R51: a 29-bit identifier is the packing of its priority, its PGN number and its source address. -/
theorem eq_pack_of_le {v : Word} (h : v.toNat ≤ 0x1FFFFFFF) :
    v = pack [(zext (extFields v.toNat).prio, 26), ((v.extractLsb 25 8).setWidth 32, 8),
      (zext (extFields v.toNat).sa, 0)] := by
  have hpgn := pgn_slice_toNat v
  have hprio : (zext (extFields v.toNat).prio).toNat = v.toNat / 2 ^ 26 % 8 := by
    rw [zext_toNat _ (by decide), extFields, BitVec.toNat_ofNat]
  have hsa : (zext (extFields v.toNat).sa).toNat = v.toNat % 256 := by
    rw [zext_toNat _ (by decide), extFields, BitVec.toNat_ofNat]
  have hlow : (pack [(zext (extFields v.toNat).sa, 0)]).toNat = v.toNat % 256 := by
    rw [pack_cons_toNat _ _ _ (by simp) (by omega), hsa]
    simp
  have hmiddle : (pack [((v.extractLsb 25 8).setWidth 32, 8), (zext (extFields v.toNat).sa, 0)]).toNat =
      v.toNat / 2 ^ 8 % 2 ^ 18 * 2 ^ 8 + v.toNat % 256 := by
    rw [pack_cons_toNat _ _ _ (by omega) (by omega), hlow, hpgn]
  apply BitVec.eq_of_toNat_eq
  rw [pack_cons_toNat _ _ _ (by omega) (by omega), hprio, hmiddle]
  omega

/-- The statement writes the packing of R51 as three terms joined left to right. -/
theorem pack_three (a b c : Word) : pack [(a, 26), (b, 8), (c, 0)] = a <<< 26 ||| b <<< 8 ||| c := by
  simp [pack, BitVec.or_assoc]

/-- Settles O14: the PGN number of the decoded fields is the slice in numbers, and the identifier packs its three
parts. -/
theorem pgnSitsInsideTheIdentifier : Obligations.PgnSitsInsideTheIdentifier := by
  refine fun w v s t hs ht hraw hedp hdp hpf hps => ⟨exec_decExt_of_le hs w hraw, ?number, ?parts⟩
  case number =>
    rw [exec_pgnBits v ht, pgnNat_of_extFields hedp hdp hpf hps, ← pgn_slice_toNat, ofNat_toNat_word]
  case parts =>
    have hpack := eq_pack_of_le hraw
    rwa [pack_three] at hpack

/-- The identifier with priority 0 and source address 0 is the PGN number shifted left by 8 (R51). -/
theorem extNat_bare_pgn (p : InPorts) : extNat { p with prio := 0, sa := 0 } = pgnNat p * 2 ^ 8 := by
  have hpgn : pgnNat { p with prio := 0, sa := 0 } = pgnNat p := rfl
  rw [extNat_eq, hpgn]
  simp

theorem extFields_of_lt {n : Nat} (h : n < 0x800) : (extFields n).prio = 0#3 ∧ (extFields n).pf = 0#8 := by
  have hprio : n / 2 ^ 26 = 0 := by omega
  have hpf : n / 2 ^ 16 = 0 := by omega
  rw [extFields, hprio, hpf]
  exact ⟨rfl, rfl⟩

/-- Settles O15: a shifted PGN number is the identifier of the PGN's fields with priority 0 and source address 0, which
comes apart into them; a number below 0x800 has nothing in the places of priority and format. -/
theorem shiftedPgnNumberComesApartInDecExt : Obligations.ShiftedPgnNumberComesApartInDecExt := by
  intro w v s t hs ht hraw
  have hpgn := pgnNat_lt t.inPorts
  have hnat : s.inPorts.raw.toNat = pgnNat t.inPorts * 2 ^ 8 := by
    rw [hraw, ofNat_word_toNat (by omega)]
  refine ⟨?number, ?fields, fun u hu hsmall => ⟨_, exec_decExt_of_le hu w (by omega), extFields_of_lt hsmall⟩⟩
  case number =>
    have hshift : s.inPorts.raw >>> 8 = BitVec.ofNat 32 (pgnNat t.inPorts) := by
      rw [← BitVec.toNat_inj, BitVec.toNat_ushiftRight, Nat.shiftRight_eq_div_pow, hnat, ofNat_pgnNat_toNat,
        Nat.mul_div_cancel _ (by decide)]
    rw [exec_pgnBits v ht, hshift]
  case fields =>
    rw [exec_decExt_of_le hs w (by omega), hnat, ← extNat_bare_pgn, extFields_extNat]
    rfl

/-! ### The PGN format router: one accessor, one constructor -/

/-- Settles O19: format 240 decides which of the two accessors carries the specific byte. -/
theorem exactlyOneAccessorIsSome : Obligations.ExactlyOneAccessorIsSome := by
  intro w v s hfault
  rcases Nat.lt_or_ge s.inPorts.pf.toNat 240 with h | h
  · exact ⟨_, _, exec_of_ok hfault (pgnDa_of_lt h), exec_of_ok hfault (pgnGe_of_lt h), rfl, fun _ => ⟨rfl, rfl⟩, nofun⟩
  · exact ⟨_, _, exec_of_ok hfault (pgnDa_of_le h), exec_of_ok hfault (pgnGe_of_le h), rfl, nofun, fun _ => ⟨rfl, rfl⟩⟩

/-- The tag of a decoded identifier is that of its format byte (R101). -/
theorem extFields_tag (n : Nat) : (extFields n).tag = if 240 ≤ (extFields n).pf.toNat then 1#1 else 0#1 := by
  simp only [extFields, BitVec.toNat_ofNat]

/-- Settles O22: format 240 decides the accessor, the constructor and the tag alike. -/
theorem exactlyOneConstructorAccepts : Obligations.ExactlyOneConstructorAccepts := by
  intro w s d hs hd hraw hformat
  have htag := extFields_tag d.inPorts.raw.toNat
  rw [hformat] at htag
  have hdecoded := exec_decExt_of_le hd w hraw
  rcases Nat.lt_or_ge s.inPorts.pf.toNat 240 with h | h
  · rw [if_neg (Nat.not_le.2 h)] at htag
    refine ⟨_, _, exec_of_ok hs (pgnDa_of_lt h), hdecoded,
      .inl ⟨rfl, htag, ?_, exec_of_rangeError hs (pgnMkbc_of_lt h)⟩⟩
    rw [htag]
    exact exec_of_ok hs (pgnMkdst_of_lt h)
  · rw [if_pos h] at htag
    refine ⟨_, _, exec_of_ok hs (pgnDa_of_le h), hdecoded,
      .inr ⟨rfl, htag, exec_of_rangeError hs (pgnMkdst_of_le h), ?_⟩⟩
    rw [htag]
    exact exec_of_ok hs (pgnMkbc_of_le h)

/-- R101: Broadcast is the top nibble of the format. -/
theorem broadcast_iff_top_nibble (pf : Byte) : 240 ≤ pf.toNat ↔ pf.extractLsb 7 4 = 0xF#4 := by
  revert pf
  decide

/-- A command whose row of R47 has no violation never changes the latch. -/
theorem exec_keeps_latch {i : Instr} (hrow : ¬ mayAnswer i .contractViolation) (s : State) :
    ∃ t r, exec i s = .next t ∧ t.rsp = some r ∧ r.status ≠ .contractViolation ∧ t.fault = s.fault ∧
      t.fcause = s.fcause := by
  obtain ⟨r, hr, hkept⟩ | ⟨-, c, hviolates, -⟩ := complete_keeps_latch_or_violates (resultOf i s.inPorts) s
  · exact ⟨_, r, exec_eq_complete i s, hr, hkept⟩
  · exact absurd (mayAnswer_of_contractViolation hviolates) hrow

theorem exec_pgnDa_eq_none_iff {w : Nibble} {s : State} (hfault : s.fault = 0#1) :
    exec (.pgnDa w) s = .next (answered .ok noData s) ↔ 240 ≤ s.inPorts.pf.toNat := by
  refine ⟨fun h => ?isNone, fun h => exec_of_ok hfault (pgnDa_of_le h)⟩
  by_contra hlt
  rw [exec_of_ok (i := .pgnDa w) hfault (pgnDa_of_lt (Nat.not_le.1 hlt))] at h
  have hsome := congrArg (fun t : State => t.rsp.map (·.out.some)) (Host.Outcome.next.inj h)
  cases hsome

theorem exec_pgnMkdst_eq_rangeError_iff {w : Nibble} {s : State} (hfault : s.fault = 0#1) :
    exec (.pgnMkdst w) s = .next (answered .rangeError noData s) ↔ 240 ≤ s.inPorts.pf.toNat := by
  rw [exec_eq_rangeError_iff_unfaulted, and_iff_right hfault]
  exact pgnMkdst_rangeError_iff

/-- Settles O23: no row of the family has a violation, and 240 is where the top nibble is 0xF. -/
theorem pgnFamilyNeverFaultsAndRoutesOnTheTopNibble : Obligations.PgnFamilyNeverFaultsAndRoutesOnTheTopNibble := by
  refine fun w s => ⟨?_, fun hfault => ⟨(exec_pgnDa_eq_none_iff hfault).trans (broadcast_iff_top_nibble _),
    (exec_pgnMkdst_eq_rangeError_iff hfault).trans (broadcast_iff_top_nibble _)⟩⟩
  rintro i (rfl | rfl | rfl | rfl | rfl) <;> exact exec_keeps_latch (fun hrow => by cases hrow) s

end Sys2Proof.Proofs

/-! # Proofs about the class table and the signal round trips (spec/40_signal.md sections 2, 4 and 5)

What R71, R72, R75 and R78 say of the tables: of those of the block, and of those of every configuration it may be
built with. First the class of a raw value as a range; then the two round trips by the class; then the block's own
tables, whose rows for W of 12 and more are bands of `2 ^ (W - 8)` values. -/

namespace Sys2Proof.Proofs

open Sys2Proof Sys2Proof.Machine Sys2Proof.SpecSide

/-- Settles O25: the row of `SIG_DEC.W` has no violation, and its rule turns at `MAX(W)`, which no word is above at W
= 32. -/
theorem sigDecIsTotalUpToMax : Obligations.SigDecIsTotalUpToMax := by
  intro w s
  have hrow : ¬ mayAnswer (sigDecOf w) .contractViolation := fun h => nomatch (mayAnswer_sigDecOf w _).1 h
  obtain ⟨t, r, ht, hr, -, hfault, hfcause⟩ := exec_keeps_latch hrow s
  refine ⟨t, r, ht, hr, hfault, hfcause, fun hs => ?status⟩
  rcases Nat.lt_or_ge (maxRaw w) s.inPorts.raw.toNat with h | h
  · rw [exec_of_rangeError hs (by rw [resultOf_sigDecOf, sigDec_of_gt chip h])] at ht
    obtain rfl := Host.Outcome.next.inj ht
    obtain rfl := Option.some.inj hr
    refine ⟨by simp [h], by simp [h], fun hw => ?_⟩
    subst hw
    exact absurd s.inPorts.raw.isLt (Nat.not_lt.2 h)
  · rw [exec_of_ok hs (by rw [resultOf_sigDecOf, sigDec_of_le chip h])] at ht
    obtain rfl := Host.Outcome.next.inj ht
    obtain rfl := Option.some.inj hr
    exact ⟨by simp [h], by simp [h], fun _ => rfl⟩

/-! ### The classes as ranges (R71, R72) -/

/-- R72: in a row of ordered cut points a raw value has a sentinel class exactly in its range. -/
theorem classOf_eq_sentinel_iff {w : Width} {cuts : SigCuts} (hvi : cuts.vHi < cuts.iHi) (hir : cuts.iHi < cuts.rHi)
    (hre : cuts.rHi < cuts.eHi) {r : Nat} (hr : r ≤ maxOf w) (c : Sentinel) :
    classOf cuts r = .sentinel c ↔ rangeLo cuts c ≤ r ∧ r ≤ rangeHi w cuts c := by
  have hmax : r ≤ maxRaw w := hr
  unfold classOf
  cases c <;> simp only [rangeLo, rangeHi] <;> split_ifs <;> simp <;> omega

/-- R71: a sentinel's range is not empty and ends at `MAX(W)` or below. -/
theorem range_nonempty {cfg : Config} (h : configWf cfg = true) (w : Width) (c : Sentinel) :
    rangeLo (cfg.sigtab w) c ≤ rangeHi w (cfg.sigtab w) c ∧ rangeHi w (cfg.sigtab w) c ≤ maxOf w := by
  obtain ⟨hvi, hir, hre, (hem : _ < maxRaw w)⟩ := cuts_ordered h w
  cases c <;> simp only [rangeLo, rangeHi, show maxOf w = maxRaw w from rfl] <;> omega

/-- Settles O28: the cut points of an allowed configuration are ordered. -/
theorem classesPartitionTheRawValues : Obligations.ClassesPartitionTheRawValues := by
  intro cfg w hcfg
  obtain ⟨hvi, hir, hre, -⟩ := cuts_ordered hcfg w
  exact ⟨fun r hr => ⟨classOf_eq_value, classOf_eq_sentinel_iff hvi hir hre hr⟩, range_nonempty hcfg w⟩

/-! ### The two round trips (R78) -/

theorem classCode_inj {c d : SigClass} : classCode c = classCode d ↔ c = d := by
  refine ⟨fun h => ?_, congrArg classCode⟩
  have hcode := congrArg classOfCode h
  rw [classOfCode_classCode, classOfCode_classCode] at hcode
  exact Option.some.inj hcode

theorem sigEnc_of_sentinel_code (cfg : Config) (w : Width) {p : InPorts} {c : Sentinel}
    (h : p.cls = classCode (.sentinel c)) : sigEnc cfg w p = .ok { noData with raw := cfg.sigcanon w c } := by
  rw [sigEnc, h, classOfCode_classCode]
  rfl

/-- The two ways `SIG_ENC.W` succeeds (R76). -/
theorem sigEnc_ok_cases {cfg : Config} {w : Width} {p : InPorts} {o : OutPorts} (h : sigEnc cfg w p = .ok o) :
    (p.cls = 0#3 ∧ p.val.toNat ≤ (cfg.sigtab w).vHi ∧ o.raw = p.val) ∨
    (∃ c, p.cls = classCode (.sentinel c) ∧ o.raw = cfg.sigcanon w c) := by
  obtain ⟨c, -, hcode⟩ | ⟨-, hreserved⟩ := classOfCode_cases p.cls
  · cases c with
    | value =>
      have hcls : p.cls = 0#3 := hcode.symm
      rcases Nat.lt_or_ge (cfg.sigtab w).vHi p.val.toNat with hval | hval
      · rw [sigEnc_of_value_gt cfg w hcls hval] at h
        cases h
      · rw [sigEnc_of_value_le cfg w hcls hval] at h
        cases h
        exact .inl ⟨hcls, hval, rfl⟩
    | sentinel c =>
      rw [sigEnc_of_sentinel_code cfg w hcode.symm] at h
      cases h
      exact .inr ⟨c, hcode.symm, rfl⟩
  · rw [sigEnc, classOfCode_eq_none hreserved] at h
    cases h

/-- A raw value of a sentinel class is above the Value range, so its decode has no payload (R73). -/
theorem signalFields_of_class {cuts : SigCuts} {raw : Word} {c : Sentinel}
    (h : classOf cuts raw.toNat = .sentinel c) :
    signalFields cuts raw = { noData with cls := classCode (.sentinel c), val := 0#32 } := by
  have hgt : cuts.vHi < raw.toNat := by
    rw [← Nat.not_le, ← classOf_eq_value, h]
    nofun
  rw [signalFields_of_sentinel hgt, ← classCode_classOf, h]

/-- Settles O30: a Value encodes to itself, which lies in the Value range; a sentinel encodes to its constant, which
lies in the range of the sentinel. -/
theorem decodedEncodedSignalIsTheSignal : Obligations.DecodedEncodedSignalIsTheSignal := by
  intro cfg w p q o hcfg hencode hraw
  obtain ⟨hvi, hir, hre, (hem : _ < maxRaw w)⟩ := cuts_ordered hcfg w
  obtain ⟨hcls, hval, ho⟩ | ⟨c, hcls, ho⟩ := sigEnc_ok_cases hencode
  · have hq : q.raw = p.val := hraw.trans ho
    refine ⟨_, sigDec_of_le cfg (by rw [hq]; omega), ?_⟩
    rw [hq, signalFields_of_value hval, if_pos hcls]
    exact ⟨hcls.symm, rfl⟩
  · have hq : q.raw = cfg.sigcanon w c := hraw.trans ho
    obtain ⟨hle, hclass⟩ := canon_in_class hcfg w c
    have hsentinel : p.cls ≠ 0#3 := fun h => nomatch classCode_inj.1 (hcls.symm.trans h : _ = classCode .value)
    refine ⟨_, sigDec_of_le cfg (by rw [hq]; exact hle), ?_⟩
    rw [hq, signalFields_of_class hclass, if_neg hsentinel]
    exact ⟨hcls.symm, rfl⟩

/-- Encoding what a raw value decodes to gives the raw value for a Value and the constant of its class for a sentinel.
-/
theorem sigEnc_of_signalFields (cfg : Config) (w : Width) {p : InPorts} {raw : Word}
    (hcls : p.cls = (signalFields (cfg.sigtab w) raw).cls) (hval : p.val = (signalFields (cfg.sigtab w) raw).val) :
    ∃ r, sigEnc cfg w p = .ok { noData with raw := r } ∧
      (classOf (cfg.sigtab w) raw.toNat = .value → r = raw) ∧
      (∀ c, classOf (cfg.sigtab w) raw.toNat = .sentinel c → r = cfg.sigcanon w c) := by
  cases hclass : classOf (cfg.sigtab w) raw.toNat with
  | value =>
    have hle := classOf_eq_value.1 hclass
    rw [signalFields_of_value hle] at hcls hval
    refine ⟨raw, ?_, fun _ => rfl, nofun⟩
    rw [sigEnc_of_value_le cfg w hcls (by rw [hval]; exact hle), hval]
  | sentinel c =>
    rw [signalFields_of_class hclass] at hcls
    refine ⟨_, sigEnc_of_sentinel_code cfg w hcls, nofun, fun d hd => ?_⟩
    cases hd
    rfl

/-- Settles O31: decoding gives the class, and a class without payload encodes to its constant. -/
theorem encodedDecodedRawIsTheRawOrTheConstant : Obligations.EncodedDecodedRawIsTheRawOrTheConstant := by
  intro cfg w p q _ hraw
  obtain ⟨r, hr, hvalue, hsentinel⟩ :=
    sigEnc_of_signalFields cfg w (p := feedSignal (signalFields (cfg.sigtab w) p.raw) q) rfl rfl
  exact ⟨_, _, sigDec_of_le cfg hraw, hr, hvalue, hsentinel⟩

/-! ### The tables of the block (R71, R75) -/

theorem chip_sigcanon_toNat (w : Width) (c : Sentinel) : (chip.sigcanon w c).toNat = rangeHi w (chip.sigtab w) c := by
  cases w <;> cases c <;> rfl

/-- Settles O29: each constant ends the range of its class, and the range of NotAvailable ends at `MAX(W)`. -/
theorem canonicalConstantsAreTheHighestOfTheirClass : Obligations.CanonicalConstantsAreTheHighestOfTheirClass :=
  fun w c => ⟨chip_sigcanon_toNat w c, (canon_in_class chip_wf w c).2, chip_sigcanon_toNat w .notAvailable⟩

theorem chip_sigtab_eq_closedCuts (w : Width) : chip.sigtab w = closedCuts w := by
  cases w <;> rfl

/-- R71's bands of `k` raw values, by the number above the free low bits. -/
def bandCuts (k : Nat) : SigCuts := ⟨0xFB * k - 1, 0xFC * k - 1, 0xFE * k - 1, 0xFF * k - 1⟩

theorem chip_sigtab_of_wide {w : Width} (h : 12 ≤ widthBits w) : chip.sigtab w = bandCuts (2 ^ (widthBits w - 8)) := by
  rw [chip_sigtab_eq_closedCuts, closedCuts, if_neg (by omega)]
  rfl

theorem maxRaw_of_wide {w : Width} (h : 12 ≤ widthBits w) : maxRaw w = 0x100 * 2 ^ (widthBits w - 8) - 1 := by
  rw [maxRaw, show (0x100 : Nat) = 2 ^ 8 from rfl, ← pow_add]
  congr 2
  omega

section
variable {k : Nat} (hk : 0 < k) (r : Nat)
include hk

/-- A band ends where the number above the low bits turns. -/
theorem le_mul_sub_one_iff_div_lt (m : Nat) (hm : 0 < m) : r ≤ m * k - 1 ↔ r / k < m := by
  have hpos := Nat.mul_pos hm hk
  rw [Nat.div_lt_iff_lt_mul hk]
  omega

/-- The last value of a band has all its low bits set. -/
theorem eq_mul_sub_one_iff (m : Nat) : r = (m + 1) * k - 1 ↔ r / k = m ∧ r % k = k - 1 := by
  have hsplit := Nat.div_add_mod r k
  have hlt := Nat.mod_lt r hk
  have hexpand : (m + 1) * k = k * m + k := by ring
  constructor
  · intro h
    have hr : r = k - 1 + k * m := by omega
    rw [hr, Nat.add_mul_div_left _ _ hk, Nat.add_mul_mod_self_left, Nat.div_eq_of_lt (by omega),
      Nat.mod_eq_of_lt (by omega)]
    omega
  · rintro ⟨hdiv, hmod⟩
    rw [hdiv, hmod] at hsplit
    omega

theorem codeBy_bandCuts :
    codeBy (bandCuts k) r =
      if r / k ≤ 0xFA then 0#3 else if r / k = 0xFB then 1#3 else if r / k ≤ 0xFD then 2#3
      else if r / k = 0xFE then 3#3 else 4#3 := by
  simp only [codeBy, bandCuts, le_mul_sub_one_iff_div_lt hk r _ (Nat.succ_pos _)]
  generalize r / k = top
  split_ifs <;> simp <;> omega

end

/-- Settles O27: the nine rows are the closed forms, their order is the well-formedness of the block's tables, and a
band's cut point is a bound on the top byte. -/
theorem classTableFollowsItsClosedForms : Obligations.ClassTableFollowsItsClosedForms := by
  refine fun w => ⟨chip_sigtab_eq_closedCuts w, ?ordered, fun hw r _ => ?bands⟩
  case ordered => simpa [cutsWf, and_assoc] using cuts_ordered chip_wf w
  case bands =>
    rw [chip_sigtab_of_wide hw]
    exact codeBy_bandCuts (Nat.two_pow_pos _) r

/-! ### The raw values that do not survive (R78, item 2) -/

/-- On the block a raw value survives the round trip unless it is a sentinel value below the last of its class. -/
def failsRoundTrip (w : Width) (r : Nat) : Prop :=
  ∃ c, classOf (chip.sigtab w) r = .sentinel c ∧ r ≠ rangeHi w (chip.sigtab w) c

theorem sigEnc_of_signalFields_ne_iff (w : Width) {p : InPorts} {raw : Word}
    (hcls : p.cls = (signalFields (chip.sigtab w) raw).cls) (hval : p.val = (signalFields (chip.sigtab w) raw).val) :
    ∃ r, sigEnc chip w p = .ok { noData with raw := r } ∧ (r ≠ raw ↔ failsRoundTrip w raw.toNat) := by
  obtain ⟨r, hr, hvalue, hsentinel⟩ := sigEnc_of_signalFields chip w hcls hval
  refine ⟨r, hr, ?_⟩
  unfold failsRoundTrip
  cases hclass : classOf (chip.sigtab w) raw.toNat with
  | value => simp [hvalue hclass]
  | sentinel c =>
    rw [hsentinel c hclass, ne_comm, ne_eq, ← BitVec.toNat_inj, chip_sigcanon_toNat]
    simp

/-- The sentinel values that survive are the upper ends of the four ranges. -/
theorem failsRoundTrip_iff {w : Width} {r : Nat} (hr : r ≤ maxRaw w) :
    failsRoundTrip w r ↔
      (chip.sigtab w).vHi < r ∧ r ≠ (chip.sigtab w).iHi ∧ r ≠ (chip.sigtab w).rHi ∧ r ≠ (chip.sigtab w).eHi ∧
        r ≠ maxRaw w := by
  obtain ⟨hvi, hir, hre, (hem : _ < maxRaw w)⟩ := cuts_ordered chip_wf w
  simp only [failsRoundTrip, classOf_eq_sentinel_iff hvi hir hre hr]
  constructor
  · rintro ⟨c, hrange, hne⟩
    cases c <;> simp only [rangeLo, rangeHi] at hrange hne <;> omega
  · intro h
    obtain hi | hi | hi | hi : r < (chip.sigtab w).iHi ∨ ((chip.sigtab w).iHi < r ∧ r < (chip.sigtab w).rHi) ∨
        ((chip.sigtab w).rHi < r ∧ r < (chip.sigtab w).eHi) ∨ (chip.sigtab w).eHi < r := by omega
    · exact ⟨.indicator, by simp only [rangeLo, rangeHi]; omega⟩
    · exact ⟨.reserved, by simp only [rangeLo, rangeHi]; omega⟩
    · exact ⟨.error, by simp only [rangeLo, rangeHi]; omega⟩
    · exact ⟨.notAvailable, by simp only [rangeLo, rangeHi]; omega⟩

/-- For W of 4, 8 and 10 only Reserved has two raw values. -/
theorem failsRoundTrip_of_narrow {w : Width} (hw : widthBits w ≤ 10) {r : Nat} (hr : r ≤ maxRaw w) :
    failsRoundTrip w r ↔ r = maxRaw w - 3 := by
  have hmax : 15 ≤ maxRaw w := by cases w <;> decide
  rw [failsRoundTrip_iff hr, chip_sigtab_eq_closedCuts, closedCuts, if_pos hw]
  dsimp only
  omega

/-- For W of 12 and more the ends are those of the bands 0xFB, 0xFD, 0xFE and 0xFF. -/
theorem failsRoundTrip_of_wide {w : Width} (hw : 12 ≤ widthBits w) {r : Nat} (hr : r ≤ maxRaw w) :
    failsRoundTrip w r ↔ 0xFB ≤ r / 2 ^ (widthBits w - 8) ∧
      (r % 2 ^ (widthBits w - 8) ≠ 2 ^ (widthBits w - 8) - 1 ∨ r / 2 ^ (widthBits w - 8) = 0xFC) := by
  have hk : 0 < 2 ^ (widthBits w - 8) := Nat.two_pow_pos _
  rw [failsRoundTrip_iff hr, chip_sigtab_of_wide hw, maxRaw_of_wide hw]
  rw [maxRaw_of_wide hw] at hr
  generalize 2 ^ (widthBits w - 8) = k at hk hr ⊢
  have htop := (le_mul_sub_one_iff_div_lt hk r 0x100 (by decide)).1 hr
  rw [bandCuts, ← Nat.not_le, le_mul_sub_one_iff_div_lt hk r 0xFB (by decide), ne_eq, eq_mul_sub_one_iff hk r 0xFB,
    ne_eq, eq_mul_sub_one_iff hk r 0xFD, ne_eq, eq_mul_sub_one_iff hk r 0xFE, ne_eq, eq_mul_sub_one_iff hk r 0xFF]
  omega

/-- Settles O32: the narrow widths lose the lower of the two Reserved values, the wide ones all but the last of each
class. -/
theorem rawValuesThatDoNotRoundTrip : Obligations.RawValuesThatDoNotRoundTrip := by
  intro w s t hs ht hraw hcls hval
  obtain ⟨r, hr, hne⟩ := sigEnc_of_signalFields_ne_iff w hcls hval
  refine ⟨exec_of_ok hs (by rw [resultOf_sigDecOf, sigDec_of_le chip hraw]), r,
    exec_of_ok ht (by rw [resultOf_sigEncOf, hr]), hne.trans ?_⟩
  rcases Nat.lt_or_ge (widthBits w) 12 with hw | hw
  · have hnarrow : w = .w4 ∨ w = .w8 ∨ w = .w10 := by
      revert hw
      cases w <;> decide
    rw [failsRoundTrip_of_narrow (by rcases hnarrow with rfl | rfl | rfl <;> decide) hraw]
    rcases hnarrow with rfl | rfl | rfl <;> simp [maxRaw, widthBits, ← BitVec.toNat_inj]
  · have hwide : w ≠ .w4 ∧ w ≠ .w8 ∧ w ≠ .w10 := by
      refine ⟨?_, ?_, ?_⟩ <;> rintro rfl <;> exact absurd hw (by decide)
    rw [failsRoundTrip_of_wide hw hraw]
    simp [hwide, hw]

end Sys2Proof.Proofs
